-- ==== Sys2Proof/Word.lean ====
section
/-! DEFINITION. The engine's data: bytes, storage frames and wire frames. -/

namespace Sys2Proof

/-- A byte: 8 bits, bit 0 the least significant (00_scope R7). -/
abbrev Byte := BitVec 8

/-- A frame in storage form: six bytes in this order, none range-restricted (20_memory R71,
30_encoding R102, 10_state R57). -/
structure Frame where
  status  : Byte
  lever0  : Byte
  lever1  : Byte
  lever2  : Byte
  lever3  : Byte
  buttons : Byte
  deriving DecidableEq, Repr

/-- A frame in wire form: seven bytes in transmission order, the status byte first
(30_encoding R101, 20_memory R73). -/
structure WireFrame where
  status : Byte
  p1     : Byte
  p2     : Byte
  p3     : Byte
  p4     : Byte
  p5     : Byte
  p6     : Byte
  deriving DecidableEq, Repr

/-- The storage frame of zeros. -/
def Frame.zero : Frame := ⟨0, 0, 0, 0, 0, 0⟩

/-- The wire frame of zeros. It is no valid frame on the wire: its marker bit is clear. -/
def WireFrame.zero : WireFrame := ⟨0, 0, 0, 0, 0, 0, 0⟩

/-- The seven bytes of a wire frame, first sent first. -/
def WireFrame.bytes (w : WireFrame) : List Byte := [w.status, w.p1, w.p2, w.p3, w.p4, w.p5, w.p6]

end Sys2Proof
end

