-- ==== Sys2Proof/Config.lean ====
section
/-! DEFINITION. What an implementation fixes (00_scope R6, 70_reset R325). The parameters are one
record, carried in `State.params`, so that the machine takes them as arguments (log 6). -/

namespace Sys2Proof

/-- The parameters of 00_scope R6, and one of the model's own, `startKeepsDispatch`. `hwm` and
`fillReset` have 6 bits, so their range 0..63 is in their type. -/
structure Params where
  /-- `TX_BUF_FRAMES`: frames each transmit buffer holds, at least 1. -/
  txBufFrames : Nat
  /-- `RD_BUF_BYTES`: the most bytes one read returns, at least 1. -/
  rdBufBytes : Nat
  /-- `MAX_RECORDERS`: external Recorders the registry holds at once, 0..255. -/
  maxRecorders : Nat
  /-- `HWM`: a write may issue only when `fill <= HWM`. -/
  hwm : BitVec 6
  /-- `THROTTLE_POLL_MS`. -/
  throttlePollMs : Nat
  /-- `UNDERRUN_RETRY_MS`. -/
  underrunRetryMs : Nat
  /-- `UNDERRUN_MIN_INTERVAL_MS`. -/
  underrunMinIntervalMs : Nat
  /-- `RD_IDLE_SLEEP_MS`. -/
  rdIdleSleepMs : Nat
  /-- `STATUS_KEEP_MARKER`: DECODE keeps bit 7 of the status byte. -/
  statusKeepMarker : Bool
  /-- `FILL_RESET`: `fill` when the Transmitter starts. -/
  fillReset : BitVec 6
  /-- The model's own, DESIGN CHOICE, safe (log 25): the Reader's start leaves `disp_list` and
  `disp_idx` unchanged, as the start column of 10_state R55 says; otherwise it clears them, as
  42_synchronizer R168 and 70_reset R324 say. -/
  startKeepsDispatch : Bool
  deriving DecidableEq, Repr

/-- The ranges the rules assume (70_reset R325). -/
abbrev Params.ok (p : Params) : Prop :=
  1 ≤ p.txBufFrames ∧ 1 ≤ p.rdBufBytes ∧ p.maxRecorders ≤ 255

/-- `TX_BUF_FRAMES` less one: OPEN in 00_scope R6, so a free value. -/
opaque Config.openTxBufFrames : Nat

/-- `RD_BUF_BYTES` less one: OPEN in 00_scope R6, so a free value. -/
opaque Config.openRdBufBytes : Nat

/-- `MAX_RECORDERS`, 0..255: OPEN in 00_scope R6, so a free value. -/
opaque Config.openMaxRecorders : BitVec 8

/-- `RD_IDLE_SLEEP_MS`: OPEN in 00_scope R6, so a free value. -/
opaque Config.openRdIdleSleepMs : Nat

/-- Which rule the Reader's start follows for `disp_list` and `disp_idx`: 10_state R55 and
42_synchronizer R168 differ and 90_conflicts settles nothing, so a free value (log 25). -/
opaque Config.openStartKeepsDispatch : Bool

/-- `DEVICE_BUF_SIZE` (00_scope R6): informational, read by no rule; its unit is not given. -/
def Config.deviceBufSize : Nat := 64

/-- `NUM_RECORDER_IDS` (00_scope R6): external Recorders have the ids 1..255. -/
def Config.numRecorderIds : Nat := 255

/-- `NUM_PLAYER_IDS` (00_scope R6): Players have the ids 1..255. -/
def Config.numPlayerIds : Nat := 255

/-- The parameters of this hardware: the values 00_scope R6 gives, the OPEN ones free. -/
def Config.hardware : Params where
  txBufFrames := Config.openTxBufFrames + 1
  rdBufBytes := Config.openRdBufBytes + 1
  maxRecorders := Config.openMaxRecorders.toNat
  hwm := 56
  throttlePollMs := 1
  underrunRetryMs := 1
  underrunMinIntervalMs := 1000
  rdIdleSleepMs := Config.openRdIdleSleepMs
  statusKeepMarker := false
  fillReset := 0
  startKeepsDispatch := Config.openStartKeepsDispatch

/-- What a byte of the Reader buffer that nothing has written reads as. DESIGN CHOICE, unsafe
(log 8): 10_state R55 leaves the contents unspecified and says that no rule reads them. -/
def Config.unwrittenByte : Byte := 0

/-- What a slot of a transmit buffer that nothing has written reads as. DESIGN CHOICE, unsafe
(log 8), as `unwrittenByte`. -/
def Config.unwrittenFrame : Frame := Frame.zero

end Sys2Proof
end

