-- ==== Sys2Proof/Syntax.lean ====
section
/-! DEFINITION. The instructions: one constructor per row of spec/opcode_table.json, with the
operands its word carries, and the words themselves. -/

namespace Sys2Proof

/-- The agents, in the order of their codes in `sel[7:6]` (30_encoding R111). -/
inductive Agent where
  | rd
  | tx
  | pr
  | cu
  deriving DecidableEq, Repr

/-- The instructions of the opcode table, in its order.

The codec's rows carry the frame they are applied to. An `RX` row carries `rx_sel[6:0]`, the low
bits of the byte it consumes (30_encoding R106). A host command carries its operand byte, legal or
not: an illegal operand is answered ILLEGAL (44_control R256). A step row has no operand: what the
environment supplies to it stands in `State`. -/
inductive Instr where
  /-- `ENCODE` (41_codec R130). -/
  | codecEncode (f : Frame)
  /-- `DECODE` (41_codec R131). -/
  | codecDecode (w : WireFrame)
  /-- `RX.UNSYNC.HI` (42_synchronizer R152). -/
  | rxUnsyncHi (data : BitVec 7)
  /-- `RX.UNSYNC.LO` (42_synchronizer R154). -/
  | rxUnsyncLo (data : BitVec 7)
  /-- `RX.STATUS_READ.HI` (42_synchronizer R153). -/
  | rxStatusReadHi (data : BitVec 7)
  /-- `RX.STATUS_READ.LO` (42_synchronizer R155). -/
  | rxStatusReadLo (data : BitVec 7)
  /-- `RX.P1_READ.HI` (42_synchronizer R153). -/
  | rxP1ReadHi (data : BitVec 7)
  /-- `RX.P1_READ.LO` (42_synchronizer R155). -/
  | rxP1ReadLo (data : BitVec 7)
  /-- `RX.P2_READ.HI` (42_synchronizer R153). -/
  | rxP2ReadHi (data : BitVec 7)
  /-- `RX.P2_READ.LO` (42_synchronizer R155). -/
  | rxP2ReadLo (data : BitVec 7)
  /-- `RX.P3_READ.HI` (42_synchronizer R153). -/
  | rxP3ReadHi (data : BitVec 7)
  /-- `RX.P3_READ.LO` (42_synchronizer R155). -/
  | rxP3ReadLo (data : BitVec 7)
  /-- `RX.P4_READ.HI` (42_synchronizer R153). -/
  | rxP4ReadHi (data : BitVec 7)
  /-- `RX.P4_READ.LO` (42_synchronizer R155). -/
  | rxP4ReadLo (data : BitVec 7)
  /-- `RX.P5_READ.HI` (42_synchronizer R153). -/
  | rxP5ReadHi (data : BitVec 7)
  /-- `RX.P5_READ.LO` (42_synchronizer R156). -/
  | rxP5ReadLo (data : BitVec 7)
  /-- `OPEN` (44_control R242). -/
  | openSession (operand : Byte)
  /-- `CLOSE` (44_control R247). -/
  | closeSession (operand : Byte)
  /-- `ATTACH_REC` (44_control R248). -/
  | attachRec (operand : Byte)
  /-- `DETACH_REC` (44_control R249). -/
  | detachRec (operand : Byte)
  /-- `ATTACH_PLAYER` (44_control R250). -/
  | attachPlayer (operand : Byte)
  /-- `DETACH_PLAYER` (44_control R251). -/
  | detachPlayer (operand : Byte)
  /-- `STATUS` (44_control R252). -/
  | readStatus (operand : Byte)
  /-- `RD_FAILURE` (44_control R253). -/
  | readRdFailure (operand : Byte)
  /-- `TX_FAILURE` (44_control R254). -/
  | readTxFailure (operand : Byte)
  /-- `RD.READ_DATA` (42_synchronizer R158). -/
  | rdReadData
  /-- `RD.READ_EMPTY` (42_synchronizer R159). -/
  | rdReadEmpty
  /-- `RD.READ_FAIL` (42_synchronizer R160). -/
  | rdReadFail
  /-- `RD.BYTE_STEP` (42_synchronizer R151). -/
  | rdByteStep
  /-- `RD.BUF_DONE` (42_synchronizer R162). -/
  | rdBufDone
  /-- `RD.DISPATCH_EXT` (42_synchronizer R163). -/
  | rdDispatchExt
  /-- `RD.FEEDBACK` (43_transmitter R210). -/
  | rdFeedback
  /-- `RD.DISPATCH_END` (42_synchronizer R164). -/
  | rdDispatchEnd
  /-- `RD.SLEEP_DONE` (42_synchronizer R161). -/
  | rdSleepDone
  /-- `TX.PRELOAD` (43_transmitter R193). -/
  | txPreload
  /-- `TX.SWAP_OK` (43_transmitter R194). -/
  | txSwapOk
  /-- `TX.SWAP_UNDERRUN` (43_transmitter R195). -/
  | txSwapUnderrun
  /-- `TX.UNDERRUN_RETRY` (43_transmitter R197). -/
  | txUnderrunRetry
  /-- `TX.DRAIN_END` (43_transmitter R198). -/
  | txDrainEnd
  /-- `TX.HALF_POINT` (43_transmitter R199). -/
  | txHalfPoint
  /-- `TX.NEXT_FRAME` (43_transmitter R201). -/
  | txNextFrame
  /-- `TX.HALF_NEED` (43_transmitter R200). -/
  | txHalfNeed
  /-- `TX.THROTTLE_PASS` (43_transmitter R202). -/
  | txThrottlePass
  /-- `TX.THROTTLE_HOLD` (43_transmitter R203). -/
  | txThrottleHold
  /-- `TX.THROTTLE_RECHECK` (43_transmitter R204). -/
  | txThrottleRecheck
  /-- `TX.WRITE_OK` (43_transmitter R205). -/
  | txWriteOk
  /-- `TX.WRITE_FAIL` (43_transmitter R206). -/
  | txWriteFail
  /-- `PR.PULL_ISSUE` (43_transmitter R207). -/
  | prPullIssue
  /-- `PR.PULL_NONE` (43_transmitter R208). -/
  | prPullNone
  /-- `PR.PULL_DONE` (43_transmitter R209). -/
  | prPullDone
  /-- `CU.DEVICE_OPEN_OK` (44_control R243). -/
  | cuDeviceOpenOk
  /-- `CU.DEVICE_OPEN_FAIL` (44_control R244). -/
  | cuDeviceOpenFail
  /-- `CU.START_RD` (44_control R245). -/
  | cuStartRd
  /-- `CU.START_TX` (44_control R246). -/
  | cuStartTx
  deriving DecidableEq, Repr

/-- An instruction's word together with the format, or port, it stands in (30_encoding R100). The
format is part of it: the words of different formats overlap (log 11). -/
inductive Code where
  /-- A wire frame at the codec's outbound side: ENCODE's row. -/
  | wireOut (w : WireFrame)
  /-- A wire frame at the codec's inbound side: DECODE's row. -/
  | wireIn (w : WireFrame)
  /-- An `rx_sel` word, `[10:8]` the state, `[7:0]` the byte (30_encoding R106). -/
  | rxSel (w : BitVec 11)
  /-- A `ctl_cmd` word, `[15:8]` the opcode, `[7:0]` the operand (30_encoding R108). -/
  | ctlCmd (w : BitVec 16)
  /-- A `step_sel` word, `[7:6]` the agent, `[5:2]` its state, `[1:0]` the condition
  (30_encoding R111). -/
  | stepSel (w : BitVec 8)
  deriving DecidableEq, Repr

end Sys2Proof
end

