-- ==== Sys2Proof/Machine/Codes.lean ====
section
/-! DEFINITION. The state codes of the agents and of the synchronizer (10_state R23, R25, R37, R43,
R45), and the response codes of the control port (30_encoding R110). -/

namespace Sys2Proof.Machine

/-- `sync_state` codes (10_state R23); 7 is reserved. -/
def UNSYNC : BitVec 3 := 0
def STATUS_READ : BitVec 3 := 1
def P1_READ : BitVec 3 := 2
def P2_READ : BitVec 3 := 3
def P3_READ : BitVec 3 := 4
def P4_READ : BitVec 3 := 5
def P5_READ : BitVec 3 := 6

/-- `rd_state` codes (10_state R25); 6 and 7 are reserved. -/
def RD_STOPPED : BitVec 3 := 0
def RD_READ : BitVec 3 := 1
def RD_PROCESS : BitVec 3 := 2
def RD_DISPATCH : BitVec 3 := 3
def RD_SLEEP : BitVec 3 := 4
def RD_FAILED : BitVec 3 := 5

/-- `tx_state` codes (10_state R37); 10 to 15 are reserved. -/
def TX_STOPPED : BitVec 4 := 0
def TX_PRELOAD : BitVec 4 := 1
def TX_SWAP : BitVec 4 := 2
def TX_UNDERRUN_WAIT : BitVec 4 := 3
def TX_NEXT : BitVec 4 := 4
def TX_HALF_NEED : BitVec 4 := 5
def TX_THROTTLE : BitVec 4 := 6
def TX_THROTTLE_WAIT : BitVec 4 := 7
def TX_WRITE_WAIT : BitVec 4 := 8
def TX_FAILED : BitVec 4 := 9

/-- `pr_state` codes (10_state R43); 3 is reserved. -/
def PR_STOPPED : BitVec 2 := 0
def PR_WAIT_NEED : BitVec 2 := 1
def PR_PULL_WAIT : BitVec 2 := 2

/-- `ss_state` codes (10_state R45); 5 to 7 are reserved. -/
def SS_CLOSED : BitVec 3 := 0
def SS_OPENING : BitVec 3 := 1
def SS_START_RD : BitVec 3 := 2
def SS_START_TX : BitVec 3 := 3
def SS_OPEN : BitVec 3 := 4

/-- Response codes (30_encoding R110). -/
def RESP_OK : Byte := 0x00
def RESP_MISUSE : Byte := 0x01
def RESP_ILLEGAL : Byte := 0x02
def RESP_OPEN_FAILED : Byte := 0x03
def RESP_FULL : Byte := 0x04

/-- The id of the Transmitter's own feedback listener in `rec_reg` (10_state R29). -/
def LISTENER : Byte := 0

end Sys2Proof.Machine
end

