-- ==== Sys2Proof/Machine/State.lean ====
section
/-! DEFINITION. The state of the machine: every field of 10_state.md, the engine's event trace, the
environment's clock and offers, and the moves still to come. Plain data throughout. -/

namespace Sys2Proof.Machine

/-- A store of values by index: index and value pairs, in the canonical form `Memory.wf` says. The
engine's stores have no addresses but the slot or byte number (20_memory R70, R72, R75). -/
abbrev Memory (α : Type) := List (Nat × α)

/-- The synchronizer's working fields `sync_work[0..5]` (10_state R24). -/
structure SyncWork where
  b0 : Byte
  b1 : Byte
  b2 : Byte
  b3 : Byte
  b4 : Byte
  b5 : Byte
  deriving DecidableEq, Repr

/-- An answer of the inbound stream to a read: bytes, none of them an empty read, or an error with
its 8-bit code (42_synchronizer R158 to R160). -/
inductive ReadAnswer where
  | data (bytes : List Byte)
  | error (code : Byte)
  deriving DecidableEq, Repr

/-- An answer of the outbound stream to the write in flight (43_transmitter R205, R206). -/
inductive WriteAnswer where
  | ok
  | error (code : Byte)
  deriving DecidableEq, Repr

/-- An answer to the device open (44_control R243, R244). -/
inductive DeviceAnswer where
  | ok
  | error
  deriving DecidableEq, Repr

/-- The events of the trace (00_scope R12, 60_exceptions R294). -/
inductive Event where
  | recDeliver (id : Byte) (frame : Frame)
  | pullReq (player : Byte) (max : Nat)
  | txWrite (bytes7 : WireFrame)
  | underrun (player : Byte)
  | resp (code : Byte) (value : BitVec 32)
  deriving DecidableEq, Repr

/-- One move. The spec lets any enabled step of any agent be taken, and the environment act at any
moment (00_scope R5, 60_exceptions R293); which move comes next is data (log 1). -/
inductive Turn where
  /-- The step, or the host's command, that this word selects. -/
  | word (c : Code)
  /-- Agent `a` takes its enabled step, whichever that is (30_encoding R111). -/
  | agent (a : Agent)
  /-- The inbound stream answers the Reader's read. -/
  | read (r : ReadAnswer)
  /-- The outbound stream answers the write in flight. -/
  | write (r : WriteAnswer)
  /-- The Player answers the pull outstanding with these frames. -/
  | pull (frames : List Frame)
  /-- External Recorder `id` accepts the frame being delivered to it. -/
  | ack (id : Byte)
  /-- The environment answers the device open. -/
  | device (r : DeviceAnswer)
  /-- The environment clock becomes `t`. -/
  | clock (t : Nat)
  deriving DecidableEq, Repr

/-- The state. Each field's docstring names the rule that gives it; the reset values are
`State.reset`'s. -/
structure State where
  /-- The parameters (00_scope R6). No step changes them (70_reset R322). -/
  params : Params
  /-- `sync_state` (10_state R23). -/
  syncState : BitVec 3
  /-- `sync_work` (10_state R24). -/
  syncWork : SyncWork
  /-- `rd_state` (10_state R25). -/
  rdState : BitVec 3
  /-- `rd_buf` (10_state R26). -/
  rdBuf : Memory Byte
  /-- `rd_len` (10_state R26). -/
  rdLen : Nat
  /-- `rd_pos` (10_state R26). -/
  rdPos : Nat
  /-- `rd_sleep_until` (10_state R27). -/
  rdSleepUntil : Nat
  /-- `rd_fail_valid` (10_state R28). -/
  rdFailValid : Bool
  /-- `rd_fail_code` (10_state R28). -/
  rdFailCode : Byte
  /-- `rec_reg` (10_state R29). -/
  recReg : List Byte
  /-- `disp_frame` (10_state R30). -/
  dispFrame : Frame
  /-- `disp_list` (10_state R30). -/
  dispList : List Byte
  /-- `disp_idx` (10_state R30). -/
  dispIdx : Nat
  /-- `buf[0]` (10_state R31). -/
  buf0 : Memory Frame
  /-- `buf[1]` (10_state R31). -/
  buf1 : Memory Frame
  /-- `cnt[0]` (10_state R31). -/
  cnt0 : Nat
  /-- `cnt[1]` (10_state R31). -/
  cnt1 : Nat
  /-- `wsel` (10_state R32): which buffer is the write buffer, `true` for `buf[1]`. -/
  wsel : Bool
  /-- `widx` (10_state R33). -/
  widx : Nat
  /-- `need` (10_state R34). -/
  need : Bool
  /-- `lock` (10_state R35). -/
  lock : Bool
  /-- `fill` (10_state R36). -/
  fill : BitVec 6
  /-- `tx_state` (10_state R37). -/
  txState : BitVec 4
  /-- `tx_wait_until` (10_state R38). -/
  txWaitUntil : Nat
  /-- `tx_out` (10_state R39). -/
  txOut : WireFrame
  /-- `tx_fail_valid` (10_state R40). -/
  txFailValid : Bool
  /-- `tx_fail_code` (10_state R40). -/
  txFailCode : Byte
  /-- `underrun_last` (10_state R41); `none` is the spec's `NONE`. -/
  underrunLast : Option Nat
  /-- `player` (10_state R42); 0 when none is attached. -/
  player : Byte
  /-- `pr_state` (10_state R43). -/
  prState : BitVec 2
  /-- `pull_player` (10_state R44). -/
  pullPlayer : Byte
  /-- `pull_max` (10_state R44). -/
  pullMax : Nat
  /-- `ss_state` (10_state R45). -/
  ssState : BitVec 3
  /-- `misuse` (10_state R46). -/
  misuse : Bool
  /-- `cu_busy` (10_state R47). -/
  cuBusy : Bool
  /-- `faulted` (10_state R51). -/
  faulted : Bool
  /-- `trace` (10_state R52), the oldest event first. -/
  trace : List Event
  /-- `now`, the environment clock in milliseconds (10_state R58). -/
  now : Nat
  /-- The model's own: the moves still to come, the next one first (log 1). -/
  turns : List Turn
  /-- The model's own: the read answer on offer, `env read` of 00_scope R10 (log 2). -/
  envRead : Option ReadAnswer
  /-- The model's own: the write answer on offer, `env write` (log 2). -/
  envWrite : Option WriteAnswer
  /-- The model's own: the pull answer on offer, `env pull` (log 2). -/
  envPull : Option (List Frame)
  /-- The model's own: the Recorder whose acceptance is on offer, `env ack(id)` (log 2). -/
  envAck : Option Byte
  /-- The model's own: the device answer on offer, `env device` (log 2). -/
  envDevice : Option DeviceAnswer
  /-- The model's own: the device id that OPEN last passed to the environment (log 13). -/
  envOpenDev : Option Byte
  /-- The model's own: the clock has gone back, which the next step that reads it finds (log 3). -/
  clockBack : Bool
  /-- The model's own: what an ENCODE taken as an instruction returned (log 10). -/
  codecWire : WireFrame
  /-- The model's own: what a DECODE taken as an instruction returned (log 10). -/
  codecFrame : Frame
  deriving DecidableEq, Repr

/-- Why a step has no next state. -/
inductive Fault where
  /-- Raised by every step of an agent, and by `step`, in a state whose `faulted` is set: "no claim
  is made about the run" (60_exceptions R288). Safe: a claim about next states says nothing of such
  a run. -/
  | runFaulted
  deriving DecidableEq, Repr

/-- Why an instruction is turned away. -/
inductive Refusal where
  /-- Raised by `exec` for an instruction that has no meaning yet. Safe. No arm uses it. -/
  | notModelled (mnemonic : String)
  /-- Raised by `step` for a wire frame, handed to the codec as a word, that breaks the bit-7 rules
  or that ENCODE never gives: no row of the opcode table matches it (30_encoding R101, R104). Safe:
  no agent of the engine hands the codec such a word. -/
  | noCodecRow
  deriving DecidableEq, Repr

/-- The machine right after block reset: 10_state R55, 70_reset R320 and R321. A field R55 calls
unspecified holds zero here, and the clock starts at 0: DESIGN CHOICE, unsafe (log 7, log 9).
The OPEN parameters are opaque (log 6). -/
def State.reset : State where
  params := Config.hardware
  syncState := UNSYNC
  syncWork := ⟨0, 0, 0, 0, 0, 0⟩
  rdState := RD_STOPPED
  rdBuf := []
  rdLen := 0
  rdPos := 0
  rdSleepUntil := 0
  rdFailValid := false
  rdFailCode := 0
  recReg := []
  dispFrame := Frame.zero
  dispList := []
  dispIdx := 0
  buf0 := []
  buf1 := []
  cnt0 := 0
  cnt1 := 0
  wsel := false
  widx := 0
  need := false
  lock := false
  fill := Config.hardware.fillReset
  txState := TX_STOPPED
  txWaitUntil := 0
  txOut := WireFrame.zero
  txFailValid := false
  txFailCode := 0
  underrunLast := none
  player := 0
  prState := PR_STOPPED
  pullPlayer := 0
  pullMax := 0
  ssState := SS_CLOSED
  misuse := false
  cuBusy := false
  faulted := false
  trace := []
  now := 0
  turns := []
  envRead := none
  envWrite := none
  envPull := none
  envAck := none
  envDevice := none
  envOpenDev := none
  clockBack := false
  codecWire := WireFrame.zero
  codecFrame := Frame.zero

end Sys2Proof.Machine
end

