-- ==== Sys2Proof/Machine/Ops.lean ====
section
/-! DEFINITION. The shared operations: the stores, the trace, the entry of every exceptional
condition, the start and the close of the loops, and the pseudocode primitives of 00_scope R10. -/

namespace Sys2Proof.Machine

/-! ### Stores -/

/-- The value at index `a`; an index that is not listed reads as `d` (log 8). -/
def Memory.read {α : Type} (d : α) : Memory α → Nat → α
  | [], _ => d
  | (k, v) :: rest, a => if k = a then v else Memory.read d rest a

/-- Index `a` takes the value `v`. The form stays canonical: the entry stands in order, and there
is none where `v` is what an unlisted index reads as. -/
def Memory.write {α : Type} [DecidableEq α] (d : α) : Memory α → Nat → α → Memory α
  | [], a, v => if v = d then [] else [(a, v)]
  | (k, w) :: rest, a, v =>
    if a < k then (if v = d then (k, w) :: rest else (a, v) :: (k, w) :: rest)
    else if a = k then (if v = d then rest else (a, v) :: rest)
    else (k, w) :: Memory.write d rest a v

/-- Indices `a`, `a + 1`, … take the listed values, the first one first. -/
def Memory.writeFrom {α : Type} [DecidableEq α] (d : α) : Memory α → Nat → List α → Memory α
  | m, _, [] => m
  | m, a, v :: vs => Memory.writeFrom d (Memory.write d m a v) (a + 1) vs

/-- Indices strictly rising from `lo` on, and no entry equal to what an unlisted index reads as. -/
def Memory.wfFrom {α : Type} [DecidableEq α] (d : α) : Nat → Memory α → Bool
  | _, [] => true
  | lo, (k, v) :: rest => decide (lo ≤ k) && decide (v ≠ d) && Memory.wfFrom d (k + 1) rest

/-- The canonical form: equal stores are equal lists. -/
def Memory.wf {α : Type} [DecidableEq α] (d : α) (m : Memory α) : Bool := Memory.wfFrom d 0 m

/-- `sync_work[k] <- x` for k in 0..5 (42_synchronizer R152, R155). -/
def SyncWork.put (w : SyncWork) (k : Nat) (x : Byte) : SyncWork :=
  match k with
  | 0 => { w with b0 := x }
  | 1 => { w with b1 := x }
  | 2 => { w with b2 := x }
  | 3 => { w with b3 := x }
  | 4 => { w with b4 := x }
  | 5 => { w with b5 := x }
  | _ => w

/-! ### Pseudocode primitives -/

/-- `emit E` (00_scope R10): the event goes to the end of the trace. -/
def State.emit (s : State) (e : Event) : State := { s with trace := s.trace ++ [e] }

/-- `goto` for the Reader. -/
def State.gotoRd (s : State) (code : BitVec 3) : State := { s with rdState := code }

/-- `goto` for the Transmitter's main loop. -/
def State.gotoTx (s : State) (code : BitVec 4) : State := { s with txState := code }

/-- `goto` for the Producer. -/
def State.gotoPr (s : State) (code : BitVec 2) : State := { s with prState := code }

/-- `goto` for the control unit. -/
def State.gotoSs (s : State) (code : BitVec 3) : State := { s with ssState := code }

/-- `resp c v` (44_control R241). -/
def State.respond (s : State) (code : Byte) (value : BitVec 32) : State :=
  s.emit (.resp code value)

/-- The `ctl_resp` word of a response: `[39:32]` the code, `[31:0]` the value (30_encoding R110). -/
def ctlResp (code : Byte) (value : BitVec 32) : BitVec 40 := code ++ value

/-! ### Exceptional conditions (60_exceptions R280) -/

/-- `fault F` (60_exceptions R288): `faulted` is set and nothing else changes. -/
def State.modelFault (s : State) : State := { s with faulted := true }

/-- The loops that a fatal I/O error can end. -/
inductive Loop where
  | rd
  | tx
  deriving DecidableEq, Repr

/-- `raise Fail(agent, code)`, the entry of an I/O failure (60_exceptions R282): the code is stored
with its valid bit and the loop ends. No handler runs and no other agent is told. There is no
return from it (R291): the loop is started again by the next session, `rdStart` and `txStart`. -/
def State.raiseFail (s : State) (loop : Loop) (code : Byte) : State :=
  match loop with
  | .rd => { s with rdFailValid := true, rdFailCode := code, rdState := RD_FAILED }
  | .tx => { s with txFailValid := true, txFailCode := code, txState := TX_FAILED }

/-- A command answered MISUSE (44_control R255): `misuse` is set and stays set. -/
def State.answerMisuse (s : State) : State :=
  { s with misuse := true }.respond RESP_MISUSE 0

/-- A command answered ILLEGAL (44_control R256): a response and nothing else. -/
def State.answerIllegal (s : State) : State := s.respond RESP_ILLEGAL 0

/-! ### Start and close of the loops, which is also the recovery from a failure (R291) -/

/-- `RD_START` (42_synchronizer R168). Where the rules differ, both are kept apart by a parameter that
is free at reset, DESIGN CHOICE, safe (log 25): R168 and 70_reset R324 clear `disp_list` and
`disp_idx`, and the start column of 10_state R55 leaves them unchanged. -/
def State.rdStart (s : State) : State :=
  { s with
    syncState := UNSYNC
    rdLen := 0
    rdPos := 0
    dispList := if s.params.startKeepsDispatch then s.dispList else []
    dispIdx := if s.params.startKeepsDispatch then s.dispIdx else 0
    rdFailValid := false
    rdFailCode := 0
    rdState := RD_READ }

/-- `RD_CLOSE` (42_synchronizer R169): the failure value is kept. -/
def State.rdClose (s : State) : State := { s with rdState := RD_STOPPED }

/-- `TX_START` (43_transmitter R191): the feedback listener is registered unless it already is. -/
def State.txStart (s : State) : State :=
  { s with
    cnt0 := 0
    cnt1 := 0
    wsel := false
    widx := 0
    need := false
    lock := false
    fill := s.params.fillReset
    underrunLast := none
    txFailValid := false
    txFailCode := 0
    recReg := if LISTENER ∈ s.recReg then s.recReg else s.recReg ++ [LISTENER]
    txState := TX_PRELOAD
    prState := PR_WAIT_NEED }

/-- `TX_CLOSE` (43_transmitter R211): the failure value, `player` and the buffers are kept. -/
def State.txClose (s : State) : State :=
  { s with
    txState := TX_STOPPED
    prState := PR_STOPPED
    recReg := s.recReg.filter (· ≠ LISTENER) }

/-! ### The need and the underrun notification -/

/-- The write of `RaiseNeed` (43_transmitter R192); its hold stands in `selector`. -/
def State.raiseNeed (s : State) : State := { s with need := true }

/-- The rate limit lets a notification through: none was sent before, or the interval has passed.
The interval is compared as a sum, so that a clock before the last notification lies inside it. -/
def State.underrunDue (s : State) : Bool :=
  match s.underrunLast with
  | none => true
  | some last => decide (last + s.params.underrunMinIntervalMs ≤ s.now)

/-- `UnderrunNotify` (43_transmitter R196). -/
def State.underrunNotify (s : State) : State :=
  if s.player ≠ 0 ∧ s.underrunDue = true then
    { s.emit (.underrun s.player) with underrunLast := some s.now }
  else s

/-- A step that reads the clock: a clock that has gone back is a model fault found here
(60_exceptions R288, log 3). -/
def State.readingClock (s : State) (body : State → State) : State :=
  if s.clockBack then s.modelFault else body s

end Sys2Proof.Machine
end

