-- ==== Sys2Proof/Machine/Codec.lean ====
section
/-! DEFINITION. The Frame Codec (41_codec): ENCODE and DECODE as the pure functions the Transmitter
and the synchronizer apply, by the shift and mask formulas of R130 and R131, and as instructions. -/

namespace Sys2Proof.Machine

/-- `ENCODE` (41_codec R130). The shifts are of unsigned bytes (00_scope R9); what a left shift
carries past bit 7 is masked away by `0x7F` in the rule, so 8 bits are wide enough. -/
def encodeFrame (f : Frame) : WireFrame where
  status := f.status ||| 0x80
  p1 := f.lever0 >>> 1
  p2 := ((f.lever0 <<< 6) ||| (f.lever1 >>> 2)) &&& 0x7F
  p3 := ((f.lever1 <<< 5) ||| (f.lever2 >>> 3)) &&& 0x7F
  p4 := ((f.lever2 <<< 4) ||| (f.lever3 >>> 4)) &&& 0x7F
  p5 := (f.lever3 <<< 3) &&& 0x7F
  p6 := f.buttons &&& 0x7F

/-- `DECODE` (41_codec R131); `keepMarker` is `STATUS_KEEP_MARKER`. The left shifts of a byte drop
what `trunc_8` drops in the rule. -/
def decodeFrame (keepMarker : Bool) (w : WireFrame) : Frame where
  status := if keepMarker then w.status else w.status &&& 0x7F
  lever0 := (w.p1 <<< 1) ||| (w.p2 >>> 6)
  lever1 := (w.p2 <<< 2) ||| (w.p3 >>> 5)
  lever2 := (w.p3 <<< 3) ||| (w.p4 >>> 4)
  lever3 := (w.p4 <<< 4) ||| (w.p5 >>> 3)
  buttons := w.p6

/-- `ENCODE` as an instruction (41_codec R130): a pure function, it writes no state of the engine;
what it returns stands in the model's own `codecWire` (log 10). -/
def execCodecEncode (f : Frame) (s : State) : Host.Outcome State Fault Refusal :=
  .next { s with codecWire := encodeFrame f }

/-- `DECODE` as an instruction (41_codec R131): what it returns stands in `codecFrame` (log 10).
The engine applies it to frames that keep the bit-7 rules only (`wellFormed`). -/
def execCodecDecode (w : WireFrame) (s : State) : Host.Outcome State Fault Refusal :=
  .next { s with codecFrame := decodeFrame s.params.statusKeepMarker w }

end Sys2Proof.Machine
end

