-- ==== Sys2Proof/WellFormed.lean ====
section
/-! DEFINITION. Which instructions have a word of their own. -/

namespace Sys2Proof

/-- Bit 7 is set in the status byte and clear in every payload byte (30_encoding R101). -/
def WireFrame.markersOk (w : WireFrame) : Bool :=
  w.status.msb && !w.p1.msb && !w.p2.msb && !w.p3.msb && !w.p4.msb && !w.p5.msb && !w.p6.msb

/-- The frames ENCODE has a word for: it drops `status[7]` and `buttons[7]` (41_codec R133). -/
def Frame.encodable (f : Frame) : Bool := !f.status.msb && !f.buttons.msb

/-- An instruction is well formed when its word gives it back: every operand of the synchronizer's
rows, of the commands and of the steps is (an illegal command operand is a word like another,
44_control R256); ENCODE's where it is `Frame.encodable`; DECODE's where it keeps the bit-7 rules
its operand has by 41_codec R131. -/
def wellFormed : Instr → Bool
  | .codecEncode f => f.encodable
  | .codecDecode w => w.markersOk
  | .rxUnsyncHi _ => true
  | .rxUnsyncLo _ => true
  | .rxStatusReadHi _ => true
  | .rxStatusReadLo _ => true
  | .rxP1ReadHi _ => true
  | .rxP1ReadLo _ => true
  | .rxP2ReadHi _ => true
  | .rxP2ReadLo _ => true
  | .rxP3ReadHi _ => true
  | .rxP3ReadLo _ => true
  | .rxP4ReadHi _ => true
  | .rxP4ReadLo _ => true
  | .rxP5ReadHi _ => true
  | .rxP5ReadLo _ => true
  | .openSession _ => true
  | .closeSession _ => true
  | .attachRec _ => true
  | .detachRec _ => true
  | .attachPlayer _ => true
  | .detachPlayer _ => true
  | .readStatus _ => true
  | .readRdFailure _ => true
  | .readTxFailure _ => true
  | .rdReadData => true
  | .rdReadEmpty => true
  | .rdReadFail => true
  | .rdByteStep => true
  | .rdBufDone => true
  | .rdDispatchExt => true
  | .rdFeedback => true
  | .rdDispatchEnd => true
  | .rdSleepDone => true
  | .txPreload => true
  | .txSwapOk => true
  | .txSwapUnderrun => true
  | .txUnderrunRetry => true
  | .txDrainEnd => true
  | .txHalfPoint => true
  | .txNextFrame => true
  | .txHalfNeed => true
  | .txThrottlePass => true
  | .txThrottleHold => true
  | .txThrottleRecheck => true
  | .txWriteOk => true
  | .txWriteFail => true
  | .prPullIssue => true
  | .prPullNone => true
  | .prPullDone => true
  | .cuDeviceOpenOk => true
  | .cuDeviceOpenFail => true
  | .cuStartRd => true
  | .cuStartTx => true

end Sys2Proof
end

