-- ==== Sys2Proof/Decode.lean ====
section
/-! DEFINITION. The decoder and the encoder, from the tables of 30_encoding R101, R107, R109 and
R112. Both are tables looked up by structural recursion, so that the kernel evaluates them. -/

namespace Sys2Proof

/-- Why a word is no instruction. -/
inductive DecodeError where
  /-- A wire frame that breaks the bit-7 rules (30_encoding R101). -/
  | notAWireFrame
  /-- A wire frame with `p5[2:0]` not 0, which ENCODE never gives (30_encoding R104). -/
  | notEncoderOutput
  /-- `rx_sel[10:8] = 7`, which matches no row (30_encoding R107). -/
  | reservedSyncState
  /-- An opcode the map does not list (30_encoding R109). -/
  | reservedOpcode (opcode : Byte)
  /-- A selector the table does not list (30_encoding R112). -/
  | unlistedSelector (sel : BitVec 8)
  deriving DecidableEq, Repr

/-- What the decoder answers. -/
inductive Decoded where
  | instr (i : Instr)
  | rejected (e : DecodeError)
  deriving DecidableEq, Repr

/-- The entry of a decode table whose key is `k`. -/
def tableFind {n : Nat} {α : Type} (k : BitVec n) : List (BitVec n × α) → Option α
  | [] => none
  | (key, row) :: rest => if key = k then some row else tableFind k rest

/-- The synchronizer's decode table (30_encoding R107): the key is `rx_sel[10:7]`, all the mask
`0x780` looks at. -/
def rxTable : List (BitVec 4 × (BitVec 7 → Instr)) :=
  [ (0x0#4, .rxUnsyncLo),
    (0x1#4, .rxUnsyncHi),
    (0x2#4, .rxStatusReadLo),
    (0x3#4, .rxStatusReadHi),
    (0x4#4, .rxP1ReadLo),
    (0x5#4, .rxP1ReadHi),
    (0x6#4, .rxP2ReadLo),
    (0x7#4, .rxP2ReadHi),
    (0x8#4, .rxP3ReadLo),
    (0x9#4, .rxP3ReadHi),
    (0xA#4, .rxP4ReadLo),
    (0xB#4, .rxP4ReadHi),
    (0xC#4, .rxP5ReadLo),
    (0xD#4, .rxP5ReadHi) ]

/-- The opcode map (30_encoding R109). -/
def opcodeTable : List (BitVec 8 × (Byte → Instr)) :=
  [ (0x01#8, .openSession),
    (0x02#8, .closeSession),
    (0x03#8, .attachRec),
    (0x04#8, .detachRec),
    (0x05#8, .attachPlayer),
    (0x06#8, .detachPlayer),
    (0x07#8, .readStatus),
    (0x08#8, .readRdFailure),
    (0x09#8, .readTxFailure) ]

/-- The step decode table (30_encoding R112), mask `0xFF`. -/
def stepTable : List (BitVec 8 × Instr) :=
  [ (0x04#8, .rdReadData),
    (0x05#8, .rdReadEmpty),
    (0x06#8, .rdReadFail),
    (0x08#8, .rdByteStep),
    (0x09#8, .rdBufDone),
    (0x0C#8, .rdDispatchExt),
    (0x0D#8, .rdFeedback),
    (0x0E#8, .rdDispatchEnd),
    (0x10#8, .rdSleepDone),
    (0x44#8, .txPreload),
    (0x48#8, .txSwapOk),
    (0x49#8, .txSwapUnderrun),
    (0x4C#8, .txUnderrunRetry),
    (0x50#8, .txDrainEnd),
    (0x51#8, .txHalfPoint),
    (0x52#8, .txNextFrame),
    (0x54#8, .txHalfNeed),
    (0x58#8, .txThrottlePass),
    (0x59#8, .txThrottleHold),
    (0x5C#8, .txThrottleRecheck),
    (0x60#8, .txWriteOk),
    (0x61#8, .txWriteFail),
    (0x84#8, .prPullIssue),
    (0x85#8, .prPullNone),
    (0x88#8, .prPullDone),
    (0xC4#8, .cuDeviceOpenOk),
    (0xC5#8, .cuDeviceOpenFail),
    (0xC8#8, .cuStartRd),
    (0xCC#8, .cuStartTx) ]

/-- A payload byte: bit 7 clear, the seven data bits below it (30_encoding R104). -/
def payloadByte (bits : BitVec 7) : Byte := 0#1 ++ bits

/-- A status byte: the marker bit, and the seven bits below it (30_encoding R103). -/
def statusByte (bits : BitVec 7) : Byte := 1#1 ++ bits

/-- The wire frame of a storage frame's bits, laid out as the table of 30_encoding R101 does:
`1sssssss 0aaaaaaa 0abbbbbb 0bbccccc 0cccdddd 0dddd000 0eeeeeee`. -/
def wireOfBits (f : Frame) : WireFrame where
  status := statusByte (f.status.extractLsb' 0 7)
  p1 := payloadByte (f.lever0.extractLsb' 1 7)
  p2 := payloadByte (f.lever0.extractLsb' 0 1 ++ f.lever1.extractLsb' 2 6)
  p3 := payloadByte (f.lever1.extractLsb' 0 2 ++ f.lever2.extractLsb' 3 5)
  p4 := payloadByte (f.lever2.extractLsb' 0 3 ++ f.lever3.extractLsb' 4 4)
  p5 := payloadByte (f.lever3.extractLsb' 0 4 ++ 0#3)
  p6 := payloadByte (f.buttons.extractLsb' 0 7)

/-- The storage frame whose bits stand in a wire frame, by the same table read the other way
(30_encoding R105); the two bits with no place on the wire are 0. -/
def bitsOfWire (w : WireFrame) : Frame where
  status := payloadByte (w.status.extractLsb' 0 7)
  lever0 := w.p1.extractLsb' 0 7 ++ w.p2.extractLsb' 6 1
  lever1 := w.p2.extractLsb' 0 6 ++ w.p3.extractLsb' 5 2
  lever2 := w.p3.extractLsb' 0 5 ++ w.p4.extractLsb' 4 3
  lever3 := w.p4.extractLsb' 0 4 ++ w.p5.extractLsb' 3 4
  buttons := payloadByte (w.p6.extractLsb' 0 7)

/-- The instruction a word stands for, or why it stands for none. -/
def decode : Code → Decoded
  | .wireOut w =>
    if !w.markersOk then .rejected .notAWireFrame
    else if w.p5.extractLsb' 0 3 ≠ 0#3 then .rejected .notEncoderOutput
    else .instr (.codecEncode (bitsOfWire w))
  | .wireIn w => if w.markersOk then .instr (.codecDecode w) else .rejected .notAWireFrame
  | .rxSel w =>
    match tableFind (w.extractLsb' 7 4) rxTable with
    | some row => .instr (row (w.extractLsb' 0 7))
    | none => .rejected .reservedSyncState
  | .ctlCmd w =>
    match tableFind (w.extractLsb' 8 8) opcodeTable with
    | some row => .instr (row (w.extractLsb' 0 8))
    | none => .rejected (.reservedOpcode (w.extractLsb' 8 8))
  | .stepSel w =>
    match tableFind w stepTable with
    | some i => .instr i
    | none => .rejected (.unlistedSelector w)

/-- The word of an instruction. -/
def encode : Instr → Code
  | .codecEncode f => .wireOut (wireOfBits f)
  | .codecDecode w => .wireIn w
  | .rxUnsyncHi data => .rxSel (0x1#4 ++ data)
  | .rxUnsyncLo data => .rxSel (0x0#4 ++ data)
  | .rxStatusReadHi data => .rxSel (0x3#4 ++ data)
  | .rxStatusReadLo data => .rxSel (0x2#4 ++ data)
  | .rxP1ReadHi data => .rxSel (0x5#4 ++ data)
  | .rxP1ReadLo data => .rxSel (0x4#4 ++ data)
  | .rxP2ReadHi data => .rxSel (0x7#4 ++ data)
  | .rxP2ReadLo data => .rxSel (0x6#4 ++ data)
  | .rxP3ReadHi data => .rxSel (0x9#4 ++ data)
  | .rxP3ReadLo data => .rxSel (0x8#4 ++ data)
  | .rxP4ReadHi data => .rxSel (0xB#4 ++ data)
  | .rxP4ReadLo data => .rxSel (0xA#4 ++ data)
  | .rxP5ReadHi data => .rxSel (0xD#4 ++ data)
  | .rxP5ReadLo data => .rxSel (0xC#4 ++ data)
  | .openSession operand => .ctlCmd (0x01#8 ++ operand)
  | .closeSession operand => .ctlCmd (0x02#8 ++ operand)
  | .attachRec operand => .ctlCmd (0x03#8 ++ operand)
  | .detachRec operand => .ctlCmd (0x04#8 ++ operand)
  | .attachPlayer operand => .ctlCmd (0x05#8 ++ operand)
  | .detachPlayer operand => .ctlCmd (0x06#8 ++ operand)
  | .readStatus operand => .ctlCmd (0x07#8 ++ operand)
  | .readRdFailure operand => .ctlCmd (0x08#8 ++ operand)
  | .readTxFailure operand => .ctlCmd (0x09#8 ++ operand)
  | .rdReadData => .stepSel 0x04#8
  | .rdReadEmpty => .stepSel 0x05#8
  | .rdReadFail => .stepSel 0x06#8
  | .rdByteStep => .stepSel 0x08#8
  | .rdBufDone => .stepSel 0x09#8
  | .rdDispatchExt => .stepSel 0x0C#8
  | .rdFeedback => .stepSel 0x0D#8
  | .rdDispatchEnd => .stepSel 0x0E#8
  | .rdSleepDone => .stepSel 0x10#8
  | .txPreload => .stepSel 0x44#8
  | .txSwapOk => .stepSel 0x48#8
  | .txSwapUnderrun => .stepSel 0x49#8
  | .txUnderrunRetry => .stepSel 0x4C#8
  | .txDrainEnd => .stepSel 0x50#8
  | .txHalfPoint => .stepSel 0x51#8
  | .txNextFrame => .stepSel 0x52#8
  | .txHalfNeed => .stepSel 0x54#8
  | .txThrottlePass => .stepSel 0x58#8
  | .txThrottleHold => .stepSel 0x59#8
  | .txThrottleRecheck => .stepSel 0x5C#8
  | .txWriteOk => .stepSel 0x60#8
  | .txWriteFail => .stepSel 0x61#8
  | .prPullIssue => .stepSel 0x84#8
  | .prPullNone => .stepSel 0x85#8
  | .prPullDone => .stepSel 0x88#8
  | .cuDeviceOpenOk => .stepSel 0xC4#8
  | .cuDeviceOpenFail => .stepSel 0xC5#8
  | .cuStartRd => .stepSel 0xC8#8
  | .cuStartTx => .stepSel 0xCC#8

/-- Byte `k` of a number whose first byte is its least significant. -/
def byteOfNat (w k : Nat) : Byte := BitVec.ofNat 8 (w / 2 ^ (8 * k))

/-- The seven bytes of a 56-bit table word: the status byte is bits 7..0, `p6` is bits 55..48.
DESIGN CHOICE, safe (log 24): 30_encoding R101 draws byte 0 leftmost and gives a frame no number. -/
def wireOfNat (w : Nat) : WireFrame :=
  ⟨byteOfNat w 0, byteOfNat w 1, byteOfNat w 2, byteOfNat w 3, byteOfNat w 4, byteOfNat w 5, byteOfNat w 6⟩

/-- The word, with its format, that the opcode table's `nbits` and `w` stand for. The table gives a
row a length and not a format, and formats of one length overlap; the choice is log 11's:
of 8 bits a `step_sel`; of 11 an `rx_sel`; of 56 a wire frame, ENCODE's where `p5[2:0]` is 0 and
DECODE's otherwise; of 16 an `rx_sel` where bits 15..8 are no opcode (0), or are one of the states
1..6 and bit 7 is set, and a `ctl_cmd` otherwise. -/
def codeOfTableWord (nbits w : Nat) : Option Code :=
  if nbits = 8 then some (.stepSel (BitVec.ofNat 8 w))
  else if nbits = 11 then some (.rxSel (BitVec.ofNat 11 w))
  else if nbits = 16 then
    if w / 256 = 0 ∨ (w / 256 ≤ 6 ∧ w / 128 % 2 = 1) then some (.rxSel (BitVec.ofNat 11 w))
    else some (.ctlCmd (BitVec.ofNat 16 w))
  else if nbits = 56 then
    if w / 2 ^ 40 % 8 = 0 then some (.wireOut (wireOfNat w)) else some (.wireIn (wireOfNat w))
  else none

/-- The instruction the decoder reads from a table word. -/
def decodeTableWord (nbits w : Nat) : Option Instr :=
  match codeOfTableWord nbits w with
  | some c =>
    match decode c with
    | .instr i => some i
    | .rejected _ => none
  | none => none

end Sys2Proof
end

