-- ==== Sys2Proof/Machine/Operands.lean ====
section
/-! DEFINITION. What the steps read and write: the next inbound byte, the two transmit buffers by
their roles, and the `rx_sel` word. -/

namespace Sys2Proof.Machine

/-- `rd_buf[i]`. -/
def State.rdByte (s : State) (i : Nat) : Byte := Memory.read Config.unwrittenByte s.rdBuf i

/-- `x` of the prelude: `rd_buf[rd_pos]` (42_synchronizer R151). -/
def State.nextByte (s : State) : Byte := s.rdByte s.rdPos

/-- `rx_sel = {sync_state, x}` (30_encoding R106). -/
def State.rxSel (s : State) : BitVec 11 := s.syncState ++ s.nextByte

/-- `buf[b]`, with `true` for index 1. -/
def State.buf (s : State) (b : Bool) : Memory Frame := if b then s.buf1 else s.buf0

/-- `cnt[b]`. -/
def State.cnt (s : State) (b : Bool) : Nat := if b then s.cnt1 else s.cnt0

/-- `buf[b] <- m`. -/
def State.setBuf (s : State) (b : Bool) (m : Memory Frame) : State :=
  if b then { s with buf1 := m } else { s with buf0 := m }

/-- `cnt[b] <- n`. -/
def State.setCnt (s : State) (b : Bool) (n : Nat) : State :=
  if b then { s with cnt1 := n } else { s with cnt0 := n }

/-- The index of the client buffer, `1 - wsel` (10_state R32). -/
def State.client (s : State) : Bool := !s.wsel

/-- The frame slot `i` of `buf[b]` as it stands, whatever `i`. -/
def State.slot (s : State) (b : Bool) (i : Nat) : Frame :=
  Memory.read Config.unwrittenFrame (s.buf b) i

/-- `BufRead(b, i)` (20_memory R72); `none` for an index outside `0 .. TX_BUF_FRAMES-1`. -/
def State.bufRead (s : State) (b : Bool) (i : Nat) : Option Frame :=
  if i < s.params.txBufFrames then some (s.slot b i) else none

/-- `BufWrite(b, i + j, g[j])` for every frame `g[j]` of the list (20_memory R72); `none` if an
index falls outside `0 .. TX_BUF_FRAMES-1`. -/
def State.bufWriteFrom (s : State) (b : Bool) (i : Nat) (frames : List Frame) : Option State :=
  if frames = [] ∨ i + frames.length ≤ s.params.txBufFrames then
    some (s.setBuf b (Memory.writeFrom Config.unwrittenFrame (s.buf b) i frames))
  else none

/-- The number of external Recorders registered: ids other than the listener's (44_control R248). -/
def State.externals (s : State) : Nat := (s.recReg.filter (· ≠ LISTENER)).length

/-- An id the host may name: 1..255 (30_encoding R109). -/
def hostId (id : Byte) : Bool := decide (id ≠ 0)

end Sys2Proof.Machine
end

