-- ==== Sys2Proof/Machine/Flags.lean ====
section
/-! DEFINITION. The computed flags and the control port's three read-only registers
(10_state R25, R37, R48 to R50, R53). -/

namespace Sys2Proof.Machine

/-- `rd_running` (10_state R25). -/
def State.rdRunning (s : State) : Bool :=
  s.rdState = RD_READ || s.rdState = RD_PROCESS || s.rdState = RD_DISPATCH || s.rdState = RD_SLEEP

/-- `tx_running` (10_state R37): `TX_PRELOAD .. TX_WRITE_WAIT`. -/
def State.txRunning (s : State) : Bool :=
  decide (TX_PRELOAD ≤ s.txState) && decide (s.txState ≤ TX_WRITE_WAIT)

/-- One flag as a 32-bit value with the flag at bit `i`. -/
def bitAt (i : Nat) (b : Bool) : BitVec 32 := if b then 1#32 <<< i else 0#32

/-- The STATUS register (10_state R48); the reserved bits read as 0. -/
def State.statusReg (s : State) : BitVec 32 :=
  bitAt 0 s.rdRunning
  ||| bitAt 1 (s.rdState = RD_FAILED)
  ||| bitAt 2 s.txRunning
  ||| bitAt 3 (s.txState = TX_FAILED)
  ||| bitAt 4 (s.prState = PR_PULL_WAIT)
  ||| bitAt 5 s.need
  ||| bitAt 6 (s.player ≠ 0)
  ||| bitAt 7 s.misuse
  ||| (s.ssState.setWidth 32 <<< 8)
  ||| (s.fill.setWidth 32 <<< 16)
  ||| (s.player.setWidth 32 <<< 24)

/-- A failure register: `[7:0]` the code, bit 8 the valid bit; with no failure it reads 0
(10_state R49, R50). -/
def failureReg (valid : Bool) (code : Byte) : BitVec 32 :=
  if valid then 0x100#32 ||| code.setWidth 32 else 0#32

/-- The RD_FAILURE register (10_state R49). -/
def State.rdFailureReg (s : State) : BitVec 32 := failureReg s.rdFailValid s.rdFailCode

/-- The TX_FAILURE register (10_state R50). -/
def State.txFailureReg (s : State) : BitVec 32 := failureReg s.txFailValid s.txFailCode

/-- A state register of agent `a` holds a reserved code (60_exceptions R288). -/
def State.reservedCode (s : State) (a : Agent) : Bool :=
  match a with
  | .rd => decide (RD_FAILED < s.rdState) || decide (P5_READ < s.syncState)
  | .tx => decide (TX_FAILED < s.txState)
  | .pr => decide (PR_PULL_WAIT < s.prState)
  | .cu => decide (SS_OPEN < s.ssState)

end Sys2Proof.Machine
end

