-- ==== Sys2Proof/Machine/Selector.lean ====
section
/-! DEFINITION. The engine's own sequencing: the `step_sel` word of each agent in each state
(30_encoding R111, R112), and the three guards under which a step, a byte step and a host command
are taken. -/

namespace Sys2Proof.Machine

/-- `sel[7:6]` (30_encoding R111). -/
def agentCode : Agent → BitVec 2
  | .rd => 0
  | .tx => 1
  | .pr => 2
  | .cu => 3

/-- The agent a selector names. -/
def agentOfCode (c : BitVec 2) : Agent :=
  if c = 0 then .rd else if c = 1 then .tx else if c = 2 then .pr else .cu

/-- `sel[5:2]`: the agent's state code, zero-extended. -/
def State.agentState (s : State) (a : Agent) : BitVec 4 :=
  match a with
  | .rd => s.rdState.setWidth 4
  | .tx => s.txState
  | .pr => s.prState.setWidth 4
  | .cu => s.ssState.setWidth 4

/-- The deadline has been reached (60_exceptions R297). A clock that has gone back lets the step be
tried too: it is then a model fault (R288, log 3). -/
def State.deadlinePassed (s : State) (deadline : Nat) : Bool :=
  s.clockBack || decide (deadline ≤ s.now)

/-- The condition code of the Reader's state (30_encoding R112); `none` where no condition of the
table holds. -/
def State.rdCondition (s : State) : Option (BitVec 2) :=
  if s.rdState = RD_READ then
    match s.envRead with
    | some (.data []) => some 1
    | some (.data (_ :: _)) => some 0
    | some (.error _) => some 2
    | none => none
  else if s.rdState = RD_PROCESS then
    if s.rdPos < s.rdLen then some 0 else if s.rdPos = s.rdLen then some 1 else none
  else if s.rdState = RD_DISPATCH then
    match s.dispList[s.dispIdx]? with
    | some id => if id = LISTENER then some 1 else some 0
    | none => if s.dispIdx = s.dispList.length then some 2 else none
  else if s.rdState = RD_SLEEP then
    if s.deadlinePassed s.rdSleepUntil then some 0 else none
  else none

/-- The condition code of the Transmitter's state (30_encoding R112). -/
def State.txCondition (s : State) : Option (BitVec 2) :=
  if s.txState = TX_PRELOAD then
    if s.need then none else some 0
  else if s.txState = TX_SWAP then
    if s.lock then none else if 0 < s.cnt s.client then some 0 else some 1
  else if s.txState = TX_UNDERRUN_WAIT then
    if s.deadlinePassed s.txWaitUntil then some 0 else none
  else if s.txState = TX_NEXT then
    if s.widx = s.cnt s.wsel then some 0
    else if s.widx < s.cnt s.wsel then
      if s.widx = s.cnt s.wsel / 2 then some 1 else some 2
    else none
  else if s.txState = TX_HALF_NEED then
    if s.need then none else some 0
  else if s.txState = TX_THROTTLE then
    if s.fill ≤ s.params.hwm then some 0 else some 1
  else if s.txState = TX_THROTTLE_WAIT then
    if s.deadlinePassed s.txWaitUntil then some 0 else none
  else if s.txState = TX_WRITE_WAIT then
    match s.envWrite with
    | some .ok => some 0
    | some (.error _) => some 1
    | none => none
  else none

/-- The condition code of the Producer's state (30_encoding R112). -/
def State.prCondition (s : State) : Option (BitVec 2) :=
  if s.prState = PR_WAIT_NEED then
    if s.need then (if s.player = 0 then some 1 else some 0) else none
  else if s.prState = PR_PULL_WAIT then
    if s.envPull.isSome then some 0 else none
  else none

/-- The condition code of the control unit's state (30_encoding R112). -/
def State.cuCondition (s : State) : Option (BitVec 2) :=
  if s.ssState = SS_OPENING then
    match s.envDevice with
    | some .ok => some 0
    | some .error => some 1
    | none => none
  else if s.ssState = SS_START_RD then some 0
  else if s.ssState = SS_START_TX then some 0
  else none

/-- The condition code of an agent. -/
def State.condition (s : State) (a : Agent) : Option (BitVec 2) :=
  match a with
  | .rd => s.rdCondition
  | .tx => s.txCondition
  | .pr => s.prCondition
  | .cu => s.cuCondition

/-- The `step_sel` word the engine forms for agent `a` (30_encoding R111): `none` where the agent
is blocked, stopped or waiting for the environment. A reserved state code gives a word that no row
of the table matches. -/
def selector (a : Agent) (s : State) : Option (BitVec 8) :=
  if s.reservedCode a then some (agentCode a ++ s.agentState a ++ 3#2)
  else
    match s.condition a with
    | some c => some (agentCode a ++ s.agentState a ++ c)
    | none => none

/-- A step of agent `a` with selector `sel` (00_scope R11). Nothing happens in it unless it is
enabled: a step that is not is held, and the agent is blocked (log 4). -/
def takeStep (a : Agent) (sel : BitVec 8) (body : State → State) (s : State) :
    Host.Outcome State Fault Refusal :=
  if s.faulted then .fault .runFaulted
  else if s.reservedCode a then .next s.modelFault
  else if selector a s = some sel then .next (body s)
  else .next s

/-- A byte step of the synchronizer with this `rx_sel` (30_encoding R107, R112): the Reader's step
is `RD.BYTE_STEP`, and the word is the one the state and the byte give (log 12). -/
def takeByteStep (rx : BitVec 11) (body : State → State) (s : State) :
    Host.Outcome State Fault Refusal :=
  if s.faulted then .fault .runFaulted
  else if s.reservedCode .rd then .next s.modelFault
  else if selector .rd s = some 0x08 ∧ s.rxSel = rx then .next (body s)
  else .next s

/-- A host command (44_control R240): the checks in their order, `cu_busy` (R258), then a reserved
opcode or an illegal operand (R256), then the command's own conditions. -/
def takeCommand (legal : Bool) (body : State → State) (s : State) :
    Host.Outcome State Fault Refusal :=
  if s.faulted then .fault .runFaulted
  else if s.reservedCode .cu then .next s.modelFault
  else if s.cuBusy then .next s.answerMisuse
  else if legal then .next (body s)
  else .next s.answerIllegal

end Sys2Proof.Machine
end

