-- ==== Sys2Proof/Machine/Control.lean ====
section
/-! DEFINITION. The control unit: the host's commands and the session start sequence
(44_control R240 to R259). -/

namespace Sys2Proof.Machine

/-- `OPEN dev` (44_control R242): no operand is illegal; `dev` goes to the environment (log 13). -/
def execOpenSession (operand : Byte) (s : State) : Host.Outcome State Fault Refusal :=
  takeCommand true
    (fun s =>
      if s.ssState ≠ SS_CLOSED then s.answerMisuse
      else { s with cuBusy := true, envOpenDev := some operand, ssState := SS_OPENING })
    s

/-- The Transmitter's part of CLOSE (44_control R247): `none` where it is still running, a Producer
with a pull outstanding included. -/
def State.closeTransmitter (s : State) : Option State :=
  if s.txState = TX_STOPPED then some s
  else if s.txRunning || s.prState = PR_PULL_WAIT then none
  else some s.txClose

/-- The Reader's part of CLOSE (44_control R247): `none` where it is still running. -/
def State.closeReader (s : State) : Option State :=
  if s.rdState = RD_STOPPED then some s
  else if s.rdRunning then none
  else some s.rdClose

/-- `CLOSE` (44_control R247): the Transmitter, then the Reader; a MISUSE at the Reader leaves the
Transmitter closed. -/
def execCloseSession (operand : Byte) (s : State) : Host.Outcome State Fault Refusal :=
  takeCommand (operand = 0)
    (fun s =>
      if s.ssState = SS_CLOSED then s.answerMisuse
      else
        match s.closeTransmitter with
        | none => s.answerMisuse
        | some t =>
          match t.closeReader with
          | none => t.answerMisuse
          | some u => (u.gotoSs SS_CLOSED).respond RESP_OK 0)
    s

/-- `ATTACH_REC id` (44_control R248). -/
def execAttachRec (operand : Byte) (s : State) : Host.Outcome State Fault Refusal :=
  takeCommand (hostId operand)
    (fun s =>
      if operand ∈ s.recReg then s.respond RESP_OK 0
      else if s.externals = s.params.maxRecorders then s.respond RESP_FULL 0
      else { s with recReg := s.recReg ++ [operand] }.respond RESP_OK 0)
    s

/-- `DETACH_REC id` (44_control R249). -/
def execDetachRec (operand : Byte) (s : State) : Host.Outcome State Fault Refusal :=
  takeCommand (hostId operand)
    (fun s => { s with recReg := s.recReg.filter (· ≠ operand) }.respond RESP_OK 0)
    s

/-- `ATTACH_PLAYER id` (44_control R250). -/
def execAttachPlayer (operand : Byte) (s : State) : Host.Outcome State Fault Refusal :=
  takeCommand (hostId operand)
    (fun s =>
      if s.player ≠ 0 then s.answerMisuse
      else { s with player := operand }.respond RESP_OK 0)
    s

/-- `DETACH_PLAYER id` (44_control R251). -/
def execDetachPlayer (operand : Byte) (s : State) : Host.Outcome State Fault Refusal :=
  takeCommand (hostId operand)
    (fun s =>
      (if s.player = operand then { s with player := 0 } else s).respond RESP_OK 0)
    s

/-- `STATUS` (44_control R252). -/
def execReadStatus (operand : Byte) (s : State) : Host.Outcome State Fault Refusal :=
  takeCommand (operand = 0) (fun s => s.respond RESP_OK s.statusReg) s

/-- `RD_FAILURE` (44_control R253). -/
def execReadRdFailure (operand : Byte) (s : State) : Host.Outcome State Fault Refusal :=
  takeCommand (operand = 0) (fun s => s.respond RESP_OK s.rdFailureReg) s

/-- `TX_FAILURE` (44_control R254). -/
def execReadTxFailure (operand : Byte) (s : State) : Host.Outcome State Fault Refusal :=
  takeCommand (operand = 0) (fun s => s.respond RESP_OK s.txFailureReg) s

/-- A command with a reserved opcode, which no row of the table is: ILLEGAL, or MISUSE while an OPEN
is in progress (44_control R256, R258). -/
def reservedCommand (s : State) : Host.Outcome State Fault Refusal := takeCommand false id s

/-- `CU.DEVICE_OPEN_OK` (44_control R243). -/
def execCuDeviceOpenOk (s : State) : Host.Outcome State Fault Refusal :=
  takeStep .cu 0xC4 (fun s => { s with envDevice := none, ssState := SS_START_RD }) s

/-- `CU.DEVICE_OPEN_FAIL` (44_control R244). -/
def execCuDeviceOpenFail (s : State) : Host.Outcome State Fault Refusal :=
  takeStep .cu 0xC5
    (fun s =>
      { s with ssState := SS_CLOSED, cuBusy := false, envDevice := none }.respond RESP_OPEN_FAILED 0)
    s

/-- `CU.START_RD` (44_control R245). -/
def execCuStartRd (s : State) : Host.Outcome State Fault Refusal :=
  takeStep .cu 0xC8 (fun s => s.rdStart.gotoSs SS_START_TX) s

/-- `CU.START_TX` (44_control R246). -/
def execCuStartTx (s : State) : Host.Outcome State Fault Refusal :=
  takeStep .cu 0xCC
    (fun s => { s.txStart with ssState := SS_OPEN, cuBusy := false }.respond RESP_OK 0)
    s

end Sys2Proof.Machine
end

