-- ==== Sys2Proof/Machine/Producer.lean ====
section
/-! DEFINITION. The Producer's steps (43_transmitter R207 to R209). -/

namespace Sys2Proof.Machine

/-- `PR.PULL_ISSUE` (43_transmitter R207). -/
def execPrPullIssue (s : State) : Host.Outcome State Fault Refusal :=
  takeStep .pr 0x84
    (fun s =>
      { s.emit (.pullReq s.player (s.params.txBufFrames - s.cnt s.client)) with
        pullPlayer := s.player
        pullMax := s.params.txBufFrames - s.cnt s.client
        lock := true
        prState := PR_PULL_WAIT })
    s

/-- `PR.PULL_NONE` (43_transmitter R208): the need is met with no frames. -/
def execPrPullNone (s : State) : Host.Outcome State Fault Refusal :=
  takeStep .pr 0x85 (fun s => { s with need := false }) s

/-- `PR.PULL_DONE` (43_transmitter R209): the frames land behind the client buffer's ready ones, as
supplied. More frames than asked for, or a slot outside the buffer, is a model fault
(60_exceptions R288). -/
def execPrPullDone (s : State) : Host.Outcome State Fault Refusal :=
  takeStep .pr 0x88
    (fun s =>
      match s.envPull with
      | some frames =>
        if s.pullMax < frames.length then s.modelFault
        else
          match s.bufWriteFrom s.client (s.cnt s.client) frames with
          | some t =>
            { t.setCnt s.client (s.cnt s.client + frames.length) with
              lock := false
              need := false
              envPull := none
              prState := PR_WAIT_NEED }
          | none => s.modelFault
      | none => s)
    s

end Sys2Proof.Machine
end

