-- ==== Sys2Proof/Machine/Synchronizer.lean ====
section
/-! DEFINITION. The Frame Synchronizer's byte steps (42_synchronizer R151 to R157). -/

namespace Sys2Proof.Machine

/-- The prelude's write: the byte at `rd_pos` is consumed (42_synchronizer R151). -/
def State.consumeByte (s : State) : State := { s with rdPos := s.rdPos + 1 }

/-- Accept a status byte (R152). -/
def State.acceptStatus (s : State) : State :=
  { s.consumeByte with syncWork := s.syncWork.put 0 s.nextByte, syncState := STATUS_READ }

/-- Discard the byte and go to `UNSYNC`: the violations of R153 and R154 (60_exceptions R281). -/
def State.discardByte (s : State) : State := { s.consumeByte with syncState := UNSYNC }

/-- Accept payload byte `pk`, `k` the code of the state, 1..5 (R155). -/
def State.acceptPayload (s : State) : State :=
  { s.consumeByte with
    syncWork := s.syncWork.put s.syncState.toNat s.nextByte
    syncState := s.syncState + 1 }

/-- The wire frame of the working bytes and `p6` (R156). -/
def SyncWork.wire (w : SyncWork) (p6 : Byte) : WireFrame := ⟨w.b0, w.b1, w.b2, w.b3, w.b4, w.b5, p6⟩

/-- Accept `p6`: decode the frame, take the snapshot of the registry and start the dispatch
(R156). -/
def State.completeFrame (s : State) : State :=
  { s.consumeByte with
    dispFrame := decodeFrame s.params.statusKeepMarker (s.syncWork.wire s.nextByte)
    dispList := s.recReg
    dispIdx := 0
    syncState := UNSYNC
    rdState := RD_DISPATCH }

/-- The transition table by state and byte class (R157). -/
def State.byteEffect (s : State) : State :=
  if s.nextByte.msb then
    if s.syncState = UNSYNC then s.acceptStatus else s.discardByte
  else
    if s.syncState = UNSYNC then s.discardByte
    else if s.syncState = P5_READ then s.completeFrame
    else s.acceptPayload

/-- `RX.UNSYNC.HI` (R152). -/
def execRxUnsyncHi (data : BitVec 7) (s : State) : Host.Outcome State Fault Refusal :=
  takeByteStep (0x1#4 ++ data) State.acceptStatus s

/-- `RX.UNSYNC.LO` (R154). -/
def execRxUnsyncLo (data : BitVec 7) (s : State) : Host.Outcome State Fault Refusal :=
  takeByteStep (0x0#4 ++ data) State.discardByte s

/-- `RX.STATUS_READ.HI` (R153). -/
def execRxStatusReadHi (data : BitVec 7) (s : State) : Host.Outcome State Fault Refusal :=
  takeByteStep (0x3#4 ++ data) State.discardByte s

/-- `RX.STATUS_READ.LO` (R155). -/
def execRxStatusReadLo (data : BitVec 7) (s : State) : Host.Outcome State Fault Refusal :=
  takeByteStep (0x2#4 ++ data) State.acceptPayload s

/-- `RX.P1_READ.HI` (R153). -/
def execRxP1ReadHi (data : BitVec 7) (s : State) : Host.Outcome State Fault Refusal :=
  takeByteStep (0x5#4 ++ data) State.discardByte s

/-- `RX.P1_READ.LO` (R155). -/
def execRxP1ReadLo (data : BitVec 7) (s : State) : Host.Outcome State Fault Refusal :=
  takeByteStep (0x4#4 ++ data) State.acceptPayload s

/-- `RX.P2_READ.HI` (R153). -/
def execRxP2ReadHi (data : BitVec 7) (s : State) : Host.Outcome State Fault Refusal :=
  takeByteStep (0x7#4 ++ data) State.discardByte s

/-- `RX.P2_READ.LO` (R155). -/
def execRxP2ReadLo (data : BitVec 7) (s : State) : Host.Outcome State Fault Refusal :=
  takeByteStep (0x6#4 ++ data) State.acceptPayload s

/-- `RX.P3_READ.HI` (R153). -/
def execRxP3ReadHi (data : BitVec 7) (s : State) : Host.Outcome State Fault Refusal :=
  takeByteStep (0x9#4 ++ data) State.discardByte s

/-- `RX.P3_READ.LO` (R155). -/
def execRxP3ReadLo (data : BitVec 7) (s : State) : Host.Outcome State Fault Refusal :=
  takeByteStep (0x8#4 ++ data) State.acceptPayload s

/-- `RX.P4_READ.HI` (R153). -/
def execRxP4ReadHi (data : BitVec 7) (s : State) : Host.Outcome State Fault Refusal :=
  takeByteStep (0xB#4 ++ data) State.discardByte s

/-- `RX.P4_READ.LO` (R155). -/
def execRxP4ReadLo (data : BitVec 7) (s : State) : Host.Outcome State Fault Refusal :=
  takeByteStep (0xA#4 ++ data) State.acceptPayload s

/-- `RX.P5_READ.HI` (R153). -/
def execRxP5ReadHi (data : BitVec 7) (s : State) : Host.Outcome State Fault Refusal :=
  takeByteStep (0xD#4 ++ data) State.discardByte s

/-- `RX.P5_READ.LO` (R156). -/
def execRxP5ReadLo (data : BitVec 7) (s : State) : Host.Outcome State Fault Refusal :=
  takeByteStep (0xC#4 ++ data) State.completeFrame s

end Sys2Proof.Machine
end

