-- ==== Sys2Proof/Machine/Reader.lean ====
section
/-! DEFINITION. The Reader's steps (42_synchronizer R151, R158 to R164) and the Transmitter's
feedback step, which the Reader takes (43_transmitter R210). -/

namespace Sys2Proof.Machine

/-- `RD.READ_DATA` (42_synchronizer R158). An answer longer than the buffer is a model fault. -/
def execRdReadData (s : State) : Host.Outcome State Fault Refusal :=
  takeStep .rd 0x04
    (fun s =>
      match s.envRead with
      | some (.data bytes) =>
        if s.params.rdBufBytes < bytes.length then s.modelFault
        else
          { s with
            rdBuf := Memory.writeFrom Config.unwrittenByte s.rdBuf 0 bytes
            rdLen := bytes.length
            rdPos := 0
            envRead := none
            rdState := RD_PROCESS }
      | _ => s)
    s

/-- `RD.READ_EMPTY` (42_synchronizer R159). -/
def execRdReadEmpty (s : State) : Host.Outcome State Fault Refusal :=
  takeStep .rd 0x05
    (fun s => s.readingClock fun s =>
      { s with
        rdSleepUntil := s.now + s.params.rdIdleSleepMs
        envRead := none
        rdState := RD_SLEEP })
    s

/-- `RD.READ_FAIL` (42_synchronizer R160, 60_exceptions R283). -/
def execRdReadFail (s : State) : Host.Outcome State Fault Refusal :=
  takeStep .rd 0x06
    (fun s =>
      match s.envRead with
      | some (.error code) => { s with envRead := none }.raiseFail .rd code
      | _ => s)
    s

/-- `RD.BYTE_STEP` (42_synchronizer R151): one byte, by the transition table. -/
def execRdByteStep (s : State) : Host.Outcome State Fault Refusal :=
  takeStep .rd 0x08 State.byteEffect s

/-- `RD.BUF_DONE` (42_synchronizer R162). -/
def execRdBufDone (s : State) : Host.Outcome State Fault Refusal :=
  takeStep .rd 0x09 (fun s => s.gotoRd RD_READ) s

/-- `RD.DISPATCH_EXT` (42_synchronizer R163): held until the Recorder being delivered to accepts the
frame. -/
def execRdDispatchExt (s : State) : Host.Outcome State Fault Refusal :=
  takeStep .rd 0x0C
    (fun s =>
      match s.dispList[s.dispIdx]? with
      | some id =>
        if s.envAck = some id then
          { s.emit (.recDeliver id s.dispFrame) with dispIdx := s.dispIdx + 1, envAck := none }
        else s
      | none => s)
    s

/-- `RD.FEEDBACK` (43_transmitter R210): the only write of `fill` while the Transmitter runs. -/
def execRdFeedback (s : State) : Host.Outcome State Fault Refusal :=
  takeStep .rd 0x0D
    (fun s => { s with fill := s.dispFrame.status.extractLsb' 0 6, dispIdx := s.dispIdx + 1 })
    s

/-- `RD.DISPATCH_END` (42_synchronizer R164). -/
def execRdDispatchEnd (s : State) : Host.Outcome State Fault Refusal :=
  takeStep .rd 0x0E (fun s => s.gotoRd RD_PROCESS) s

/-- `RD.SLEEP_DONE` (42_synchronizer R161). -/
def execRdSleepDone (s : State) : Host.Outcome State Fault Refusal :=
  takeStep .rd 0x10 (fun s => s.readingClock fun s => s.gotoRd RD_READ) s

end Sys2Proof.Machine
end

