-- ==== Sys2Proof/Machine/Transmitter.lean ====
section
/-! DEFINITION. The Transmitter's main loop (43_transmitter R190, R193 to R206). -/

namespace Sys2Proof.Machine

/-- `TX.PRELOAD` (43_transmitter R193). -/
def execTxPreload (s : State) : Host.Outcome State Fault Refusal :=
  takeStep .tx 0x44 (fun s => s.raiseNeed.gotoTx TX_SWAP) s

/-- `TX.SWAP_OK` (43_transmitter R194). -/
def execTxSwapOk (s : State) : Host.Outcome State Fault Refusal :=
  takeStep .tx 0x48 (fun s => { s with wsel := !s.wsel, widx := 0, txState := TX_NEXT }) s

/-- `TX.SWAP_UNDERRUN` (43_transmitter R195). -/
def execTxSwapUnderrun (s : State) : Host.Outcome State Fault Refusal :=
  takeStep .tx 0x49
    (fun s => s.readingClock fun s =>
      { s.underrunNotify with
        txWaitUntil := s.now + s.params.underrunRetryMs
        txState := TX_UNDERRUN_WAIT })
    s

/-- `TX.UNDERRUN_RETRY` (43_transmitter R197): a new need only if none is outstanding and the client
buffer is still empty. -/
def execTxUnderrunRetry (s : State) : Host.Outcome State Fault Refusal :=
  takeStep .tx 0x4C
    (fun s => s.readingClock fun s =>
      (if s.need = false ∧ s.cnt s.client = 0 then s.raiseNeed else s).gotoTx TX_SWAP)
    s

/-- `TX.DRAIN_END` (43_transmitter R198). -/
def execTxDrainEnd (s : State) : Host.Outcome State Fault Refusal :=
  takeStep .tx 0x50 (fun s => { s.setCnt s.wsel 0 with widx := 0, txState := TX_SWAP }) s

/-- `TX.HALF_POINT` (43_transmitter R199). -/
def execTxHalfPoint (s : State) : Host.Outcome State Fault Refusal :=
  takeStep .tx 0x51 (fun s => s.gotoTx TX_HALF_NEED) s

/-- `TX.NEXT_FRAME` (43_transmitter R201). -/
def execTxNextFrame (s : State) : Host.Outcome State Fault Refusal :=
  takeStep .tx 0x52 (fun s => s.gotoTx TX_THROTTLE) s

/-- `TX.HALF_NEED` (43_transmitter R200). -/
def execTxHalfNeed (s : State) : Host.Outcome State Fault Refusal :=
  takeStep .tx 0x54 (fun s => s.raiseNeed.gotoTx TX_THROTTLE) s

/-- `TX.THROTTLE_PASS` (43_transmitter R202): the check of `fill` and the issue of the write are one
step. A `widx` outside the buffer is a model fault (20_memory R72). -/
def execTxThrottlePass (s : State) : Host.Outcome State Fault Refusal :=
  takeStep .tx 0x58
    (fun s =>
      match s.bufRead s.wsel s.widx with
      | some f =>
        { s.emit (.txWrite (encodeFrame f)) with txOut := encodeFrame f, txState := TX_WRITE_WAIT }
      | none => s.modelFault)
    s

/-- `TX.THROTTLE_HOLD` (43_transmitter R203). -/
def execTxThrottleHold (s : State) : Host.Outcome State Fault Refusal :=
  takeStep .tx 0x59
    (fun s => s.readingClock fun s =>
      { s with txWaitUntil := s.now + s.params.throttlePollMs, txState := TX_THROTTLE_WAIT })
    s

/-- `TX.THROTTLE_RECHECK` (43_transmitter R204). -/
def execTxThrottleRecheck (s : State) : Host.Outcome State Fault Refusal :=
  takeStep .tx 0x5C (fun s => s.readingClock fun s => s.gotoTx TX_THROTTLE) s

/-- `TX.WRITE_OK` (43_transmitter R205). -/
def execTxWriteOk (s : State) : Host.Outcome State Fault Refusal :=
  takeStep .tx 0x60
    (fun s => { s with widx := s.widx + 1, envWrite := none, txState := TX_NEXT }) s

/-- `TX.WRITE_FAIL` (43_transmitter R206, 60_exceptions R284). -/
def execTxWriteFail (s : State) : Host.Outcome State Fault Refusal :=
  takeStep .tx 0x61
    (fun s =>
      match s.envWrite with
      | some (.error code) => { s with envWrite := none }.raiseFail .tx code
      | _ => s)
    s

end Sys2Proof.Machine
end

