-- ==== Sys2Proof/Machine/Dispatch.lean ====
section
/-! DEFINITION. The meaning of every instruction. -/

namespace Sys2Proof.Machine

/-- One instruction executed at `s`. -/
def exec (i : Instr) (s : State) : Host.Outcome State Fault Refusal :=
  match i with
  | .codecEncode f => Sys2Proof.Machine.execCodecEncode f s
  | .codecDecode w => Sys2Proof.Machine.execCodecDecode w s
  | .rxUnsyncHi data => Sys2Proof.Machine.execRxUnsyncHi data s
  | .rxUnsyncLo data => Sys2Proof.Machine.execRxUnsyncLo data s
  | .rxStatusReadHi data => Sys2Proof.Machine.execRxStatusReadHi data s
  | .rxStatusReadLo data => Sys2Proof.Machine.execRxStatusReadLo data s
  | .rxP1ReadHi data => Sys2Proof.Machine.execRxP1ReadHi data s
  | .rxP1ReadLo data => Sys2Proof.Machine.execRxP1ReadLo data s
  | .rxP2ReadHi data => Sys2Proof.Machine.execRxP2ReadHi data s
  | .rxP2ReadLo data => Sys2Proof.Machine.execRxP2ReadLo data s
  | .rxP3ReadHi data => Sys2Proof.Machine.execRxP3ReadHi data s
  | .rxP3ReadLo data => Sys2Proof.Machine.execRxP3ReadLo data s
  | .rxP4ReadHi data => Sys2Proof.Machine.execRxP4ReadHi data s
  | .rxP4ReadLo data => Sys2Proof.Machine.execRxP4ReadLo data s
  | .rxP5ReadHi data => Sys2Proof.Machine.execRxP5ReadHi data s
  | .rxP5ReadLo data => Sys2Proof.Machine.execRxP5ReadLo data s
  | .openSession operand => Sys2Proof.Machine.execOpenSession operand s
  | .closeSession operand => Sys2Proof.Machine.execCloseSession operand s
  | .attachRec operand => Sys2Proof.Machine.execAttachRec operand s
  | .detachRec operand => Sys2Proof.Machine.execDetachRec operand s
  | .attachPlayer operand => Sys2Proof.Machine.execAttachPlayer operand s
  | .detachPlayer operand => Sys2Proof.Machine.execDetachPlayer operand s
  | .readStatus operand => Sys2Proof.Machine.execReadStatus operand s
  | .readRdFailure operand => Sys2Proof.Machine.execReadRdFailure operand s
  | .readTxFailure operand => Sys2Proof.Machine.execReadTxFailure operand s
  | .rdReadData => Sys2Proof.Machine.execRdReadData s
  | .rdReadEmpty => Sys2Proof.Machine.execRdReadEmpty s
  | .rdReadFail => Sys2Proof.Machine.execRdReadFail s
  | .rdByteStep => Sys2Proof.Machine.execRdByteStep s
  | .rdBufDone => Sys2Proof.Machine.execRdBufDone s
  | .rdDispatchExt => Sys2Proof.Machine.execRdDispatchExt s
  | .rdFeedback => Sys2Proof.Machine.execRdFeedback s
  | .rdDispatchEnd => Sys2Proof.Machine.execRdDispatchEnd s
  | .rdSleepDone => Sys2Proof.Machine.execRdSleepDone s
  | .txPreload => Sys2Proof.Machine.execTxPreload s
  | .txSwapOk => Sys2Proof.Machine.execTxSwapOk s
  | .txSwapUnderrun => Sys2Proof.Machine.execTxSwapUnderrun s
  | .txUnderrunRetry => Sys2Proof.Machine.execTxUnderrunRetry s
  | .txDrainEnd => Sys2Proof.Machine.execTxDrainEnd s
  | .txHalfPoint => Sys2Proof.Machine.execTxHalfPoint s
  | .txNextFrame => Sys2Proof.Machine.execTxNextFrame s
  | .txHalfNeed => Sys2Proof.Machine.execTxHalfNeed s
  | .txThrottlePass => Sys2Proof.Machine.execTxThrottlePass s
  | .txThrottleHold => Sys2Proof.Machine.execTxThrottleHold s
  | .txThrottleRecheck => Sys2Proof.Machine.execTxThrottleRecheck s
  | .txWriteOk => Sys2Proof.Machine.execTxWriteOk s
  | .txWriteFail => Sys2Proof.Machine.execTxWriteFail s
  | .prPullIssue => Sys2Proof.Machine.execPrPullIssue s
  | .prPullNone => Sys2Proof.Machine.execPrPullNone s
  | .prPullDone => Sys2Proof.Machine.execPrPullDone s
  | .cuDeviceOpenOk => Sys2Proof.Machine.execCuDeviceOpenOk s
  | .cuDeviceOpenFail => Sys2Proof.Machine.execCuDeviceOpenFail s
  | .cuStartRd => Sys2Proof.Machine.execCuStartRd s
  | .cuStartTx => Sys2Proof.Machine.execCuStartTx s

end Sys2Proof.Machine
end

