-- ==== Sys2Proof/Machine/Environment.lean ====
section
/-! DEFINITION. The environment's side of the ports (00_scope R10, 60_exceptions R288, R289): an
answer is put on offer where a request is outstanding, and is a model fault where none is. And what
a word that no row matches does. -/

namespace Sys2Proof.Machine

/-- A read is outstanding: the Reader waits in `RD_READ` and no answer is on offer. -/
def State.readOutstanding (s : State) : Bool := s.rdState = RD_READ && s.envRead.isNone

/-- A write is outstanding (43_transmitter R205, R206). -/
def State.writeOutstanding (s : State) : Bool := s.txState = TX_WRITE_WAIT && s.envWrite.isNone

/-- A pull is outstanding (43_transmitter R209). -/
def State.pullOutstanding (s : State) : Bool := s.prState = PR_PULL_WAIT && s.envPull.isNone

/-- The Reader waits for Recorder `id` to accept the frame (42_synchronizer R163). -/
def State.ackOutstanding (s : State) (id : Byte) : Bool :=
  s.rdState = RD_DISPATCH && s.dispList[s.dispIdx]? = some id && hostId id && s.envAck.isNone

/-- The device open is outstanding (44_control R243, R244). -/
def State.deviceOutstanding (s : State) : Bool := s.ssState = SS_OPENING && s.envDevice.isNone

/-- The inbound stream answers the read. -/
def State.offerRead (s : State) (r : ReadAnswer) : State :=
  if s.readOutstanding then { s with envRead := some r } else s.modelFault

/-- The outbound stream answers the write. -/
def State.offerWrite (s : State) (r : WriteAnswer) : State :=
  if s.writeOutstanding then { s with envWrite := some r } else s.modelFault

/-- The Player answers the pull. -/
def State.offerPull (s : State) (frames : List Frame) : State :=
  if s.pullOutstanding then { s with envPull := some frames } else s.modelFault

/-- Recorder `id` accepts the frame. -/
def State.offerAck (s : State) (id : Byte) : State :=
  if s.ackOutstanding id then { s with envAck := some id } else s.modelFault

/-- The environment answers the device open. -/
def State.offerDevice (s : State) (r : DeviceAnswer) : State :=
  if s.deviceOutstanding then { s with envDevice := some r } else s.modelFault

/-- The clock becomes `t` (10_state R58). That it went back is noted here and found by the next step
that reads it (60_exceptions R288, log 3). -/
def State.setClock (s : State) (t : Nat) : State :=
  { s with now := t, clockBack := s.clockBack || decide (t < s.now) }

/-- What happens at a word that is no instruction: a reserved opcode is answered by the control unit
(44_control R256, R258); a selector outside the tables is a model fault where its agent holds a
reserved code, and else selects no step (30_encoding R107, R112); a wire frame that is no row of the
codec's is refused. -/
def undecoded (e : DecodeError) (s : State) : Host.Outcome State Fault Refusal :=
  match e with
  | .notAWireFrame => .refused .noCodecRow
  | .notEncoderOutput => .refused .noCodecRow
  | .reservedSyncState => .next (if s.reservedCode .rd then s.modelFault else s)
  | .reservedOpcode _ => reservedCommand s
  | .unlistedSelector sel =>
    .next (if s.reservedCode (agentOfCode (sel.extractLsb' 6 2)) then s.modelFault else s)

/-- `s` without its next move. -/
def State.popTurn (s : State) : State := { s with turns := s.turns.tail }

end Sys2Proof.Machine
end

