-- ==== Sys2Proof/Machine/Step.lean ====
section
/-! DEFINITION. One step of the machine: the next move is taken. -/

namespace Sys2Proof.Machine

/-- The instruction a word stands for is executed; a word that stands for none is left to
`undecoded`. -/
def runCode (c : Code) (s : State) : Host.Outcome State Fault Refusal :=
  match decode c with
  | .instr i => exec i s
  | .rejected e => undecoded e s

/-- One move. A machine that is faulted has none (60_exceptions R288); one with no move left idles
(log 1). -/
def step (s : State) : Host.Outcome State Fault Refusal :=
  if s.faulted then .fault .runFaulted
  else
    match s.turns with
    | [] => .next s
    | .word c :: _ => runCode c s.popTurn
    | .agent a :: _ =>
      match selector a s with
      | some sel => runCode (.stepSel sel) s.popTurn
      | none => .next s.popTurn
    | .read r :: _ => .next (s.popTurn.offerRead r)
    | .write r :: _ => .next (s.popTurn.offerWrite r)
    | .pull frames :: _ => .next (s.popTurn.offerPull frames)
    | .ack id :: _ => .next (s.popTurn.offerAck id)
    | .device r :: _ => .next (s.popTurn.offerDevice r)
    | .clock t :: _ => .next (s.popTurn.setClock t)

/-- `s` with the table word `w` of `nbits` bits as its next move. -/
def State.withFetchWord (s : State) (nbits w : Nat) : State :=
  match codeOfTableWord nbits w with
  | some c => { s with turns := .word c :: s.turns }
  | none => s

end Sys2Proof.Machine
end

