-- ==== Sys2Proof/Safety.lean ====
section
/-! DEFINITION. What the statements about the machine speak of: when an agent is ready, what an
invariant of the machine says, and runs of byte steps. -/

namespace Sys2Proof.Machine

/-- No model fault stands in the way of agent `a`'s next step: the run is not faulted and the
agent's state registers hold no reserved code (60_exceptions R288). -/
abbrev State.ready (s : State) (a : Agent) : Prop :=
  s.faulted = false ∧ s.reservedCode a = false

/-- The Reader is about to process the byte at `rd_pos` (42_synchronizer R151). -/
abbrev State.byteReady (s : State) : Prop :=
  s.ready .rd ∧ s.rdState = RD_PROCESS ∧ s.rdPos < s.rdLen

/-- The control unit takes a command: no OPEN is in progress (44_control R240). -/
abbrev State.commandReady (s : State) : Prop := s.ready .cu ∧ s.cuBusy = false

/-- Working byte `k` of the synchronizer (10_state R24). -/
def SyncWork.byte (w : SyncWork) (k : Nat) : Byte :=
  match k with
  | 0 => w.b0
  | 1 => w.b1
  | 2 => w.b2
  | 3 => w.b3
  | 4 => w.b4
  | _ => w.b5

/-- `n` byte steps of the Reader, one after the other; `none` if one of them has no next state. -/
def byteSteps : Nat → State → Option State
  | 0, s => some s
  | n + 1, s =>
    match exec .rdByteStep s with
    | .next t => byteSteps n t
    | _ => none

/-- The bytes of `rd_buf` from index `i` on are those listed. -/
def State.bytesAt (s : State) : Nat → List Byte → Bool
  | _, [] => true
  | i, x :: xs => decide (s.rdByte i = x) && s.bytesAt (i + 1) xs

/-- The agent whose step an instruction is (30_encoding R106, R108, R111); the codec is none. -/
def instrAgent : Instr → Option Agent
  | .codecEncode _ => none
  | .codecDecode _ => none
  | .rxUnsyncHi _ => some .rd
  | .rxUnsyncLo _ => some .rd
  | .rxStatusReadHi _ => some .rd
  | .rxStatusReadLo _ => some .rd
  | .rxP1ReadHi _ => some .rd
  | .rxP1ReadLo _ => some .rd
  | .rxP2ReadHi _ => some .rd
  | .rxP2ReadLo _ => some .rd
  | .rxP3ReadHi _ => some .rd
  | .rxP3ReadLo _ => some .rd
  | .rxP4ReadHi _ => some .rd
  | .rxP4ReadLo _ => some .rd
  | .rxP5ReadHi _ => some .rd
  | .rxP5ReadLo _ => some .rd
  | .openSession _ => some .cu
  | .closeSession _ => some .cu
  | .attachRec _ => some .cu
  | .detachRec _ => some .cu
  | .attachPlayer _ => some .cu
  | .detachPlayer _ => some .cu
  | .readStatus _ => some .cu
  | .readRdFailure _ => some .cu
  | .readTxFailure _ => some .cu
  | .rdReadData => some .rd
  | .rdReadEmpty => some .rd
  | .rdReadFail => some .rd
  | .rdByteStep => some .rd
  | .rdBufDone => some .rd
  | .rdDispatchExt => some .rd
  | .rdFeedback => some .rd
  | .rdDispatchEnd => some .rd
  | .rdSleepDone => some .rd
  | .txPreload => some .tx
  | .txSwapOk => some .tx
  | .txSwapUnderrun => some .tx
  | .txUnderrunRetry => some .tx
  | .txDrainEnd => some .tx
  | .txHalfPoint => some .tx
  | .txNextFrame => some .tx
  | .txHalfNeed => some .tx
  | .txThrottlePass => some .tx
  | .txThrottleHold => some .tx
  | .txThrottleRecheck => some .tx
  | .txWriteOk => some .tx
  | .txWriteFail => some .tx
  | .prPullIssue => some .pr
  | .prPullNone => some .pr
  | .prPullDone => some .pr
  | .cuDeviceOpenOk => some .cu
  | .cuDeviceOpenFail => some .cu
  | .cuStartRd => some .cu
  | .cuStartTx => some .cu

/-- The state a CLOSE leaves of the Transmitter and its Producer when it may close them
(43_transmitter R211); one already stopped stays as it is. -/
def State.transmitterClosed (s : State) : State :=
  if s.txState = TX_STOPPED then s
  else
    { s with
      txState := TX_STOPPED
      prState := PR_STOPPED
      recReg := s.recReg.filter (· ≠ 0) }

/-- CLOSE finds the Transmitter still running, its Producer's outstanding pull included
(44_control R247). -/
abbrev State.transmitterInUse (s : State) : Prop :=
  s.txState ≠ TX_STOPPED ∧ (s.txRunning = true ∨ s.prState = PR_PULL_WAIT)

/-- The state with other dispatch registers `disp_list` and `disp_idx` (10_state R30). -/
def State.withDispatch (s : State) (ids : List Byte) (idx : Nat) : State :=
  { s with dispList := ids, dispIdx := idx }

/-- The state with one more event at the end of its trace. -/
def State.after (s : State) (e : Event) : State := { s with trace := s.trace ++ [e] }

/-! ### The parts of the machine's invariant -/

/-- No state register holds a reserved code (10_state R21, R23, R25, R37, R43, R45). -/
abbrev State.codesLegal (s : State) : Prop :=
  s.syncState ≤ P5_READ ∧ s.rdState ≤ RD_FAILED ∧ s.txState ≤ TX_FAILED ∧
    s.prState ≤ PR_PULL_WAIT ∧ s.ssState ≤ SS_OPEN

/-- Every index of a store lies below its capacity. -/
def Memory.below {α : Type} (bound : Nat) (m : Memory α) : Bool :=
  m.all fun entry => decide (entry.1 < bound)

/-- The stores are canonical and hold nothing outside their capacity, and the Reader's and the
dispatch's positions lie in range (10_state R26, R30, R31; 20_memory R72). -/
abbrev State.storesOk (s : State) : Prop :=
  Memory.wf Config.unwrittenByte s.rdBuf = true ∧
    Memory.wf Config.unwrittenFrame s.buf0 = true ∧
    Memory.wf Config.unwrittenFrame s.buf1 = true ∧
    Memory.below s.params.rdBufBytes s.rdBuf = true ∧
    Memory.below s.params.txBufFrames s.buf0 = true ∧
    Memory.below s.params.txBufFrames s.buf1 = true ∧
    s.rdPos ≤ s.rdLen ∧ s.rdLen ≤ s.params.rdBufBytes ∧ s.dispIdx ≤ s.dispList.length

/-- A list of Recorder ids without duplicates and with at most `MAX_RECORDERS` external ones
(10_state R29). -/
abbrev recorderList (max : Nat) (ids : List Byte) : Prop :=
  ids.Nodup ∧ (ids.filter (· ≠ LISTENER)).length ≤ max

/-- The registry and its snapshot are such lists (10_state R29, R30). -/
abbrev State.registryOk (s : State) : Prop :=
  recorderList s.params.maxRecorders s.recReg ∧ recorderList s.params.maxRecorders s.dispList

/-- No loop has been started (10_state R45). -/
abbrev State.allStopped (s : State) : Prop :=
  s.rdState = RD_STOPPED ∧ s.txState = TX_STOPPED ∧ s.prState = PR_STOPPED

/-- The loops' states fit the session's (10_state R45, R47, 44_control R242, 90_conflicts C15), the
listener is registered exactly while the Transmitter is not stopped (43_transmitter R191, R211), and
an answer is on offer only where a request is outstanding (60_exceptions R288). -/
abbrev State.sessionOk (s : State) : Prop :=
  (s.ssState = SS_CLOSED ∨ s.ssState = SS_OPENING ∨ s.ssState = SS_START_RD → s.allStopped) ∧
    (s.ssState = SS_START_TX →
      s.rdState ≠ RD_STOPPED ∧ s.txState = TX_STOPPED ∧ s.prState = PR_STOPPED) ∧
    (s.ssState = SS_OPEN → s.rdState ≠ RD_STOPPED) ∧
    (s.cuBusy = true ↔
      s.ssState = SS_OPENING ∨ s.ssState = SS_START_RD ∨ s.ssState = SS_START_TX) ∧
    (s.txState = TX_STOPPED ↔ s.prState = PR_STOPPED) ∧
    (LISTENER ∈ s.recReg ↔ s.txState ≠ TX_STOPPED) ∧
    (s.envRead.isSome = true → s.rdState = RD_READ) ∧
    (s.envWrite.isSome = true → s.txState = TX_WRITE_WAIT) ∧
    (s.envPull.isSome = true → s.prState = PR_PULL_WAIT) ∧
    (s.envDevice.isSome = true → s.ssState = SS_OPENING) ∧
    (s.envAck.isSome = true →
      s.rdState = RD_DISPATCH ∧ s.dispList[s.dispIdx]? = s.envAck ∧ s.envAck ≠ some LISTENER)

/-- The main loop has passed no half point of the buffer it is draining, or is at it: no need is out
and the client buffer is empty (43_transmitter R212). -/
abbrev State.beforeHalf (s : State) : Prop :=
  s.txState = TX_HALF_NEED ∨
    (s.txState = TX_NEXT ∧ s.widx ≤ s.cnt s.wsel / 2) ∨
    ((s.txState = TX_THROTTLE ∨ s.txState = TX_THROTTLE_WAIT ∨ s.txState = TX_WRITE_WAIT) ∧
      s.widx < s.cnt s.wsel / 2)

/-- The need handshake, the lock and the two buffers (10_state R31 to R35, R44; 20_memory R81, R83;
43_transmitter R212). -/
abbrev State.handshakeOk (s : State) : Prop :=
  s.cnt0 ≤ s.params.txBufFrames ∧ s.cnt1 ≤ s.params.txBufFrames ∧
    (s.lock = true ↔ s.prState = PR_PULL_WAIT) ∧
    (s.prState = PR_PULL_WAIT →
      s.need = true ∧ s.pullPlayer ≠ 0 ∧ s.pullMax = s.params.txBufFrames) ∧
    (0 < s.cnt s.client → s.need = false) ∧
    (s.txState = TX_PRELOAD ∨ s.txState = TX_SWAP ∨ s.txState = TX_UNDERRUN_WAIT →
      s.cnt s.wsel = 0 ∧ s.widx = 0) ∧
    (s.txState = TX_PRELOAD → s.need = false ∧ s.cnt s.client = 0) ∧
    (s.txState = TX_NEXT → 0 < s.cnt s.wsel ∧ s.widx ≤ s.cnt s.wsel) ∧
    (s.txState = TX_HALF_NEED ∨ s.txState = TX_THROTTLE ∨ s.txState = TX_THROTTLE_WAIT ∨
        s.txState = TX_WRITE_WAIT →
      s.widx < s.cnt s.wsel) ∧
    (s.txState = TX_HALF_NEED → s.widx = s.cnt s.wsel / 2) ∧
    (s.beforeHalf → s.need = false ∧ s.cnt s.client = 0)

/-- A failure value is stored exactly as 10_state R28 and R40 say: valid while the loop is failed,
not valid while it runs, and 0 where it is not valid. -/
abbrev State.failuresOk (s : State) : Prop :=
  (s.rdState = RD_FAILED → s.rdFailValid = true) ∧
    (s.rdRunning = true → s.rdFailValid = false) ∧
    (s.rdFailValid = false → s.rdFailCode = 0) ∧
    (s.txState = TX_FAILED → s.txFailValid = true) ∧
    (s.txRunning = true → s.txFailValid = false) ∧
    (s.txFailValid = false → s.txFailCode = 0)

/-- The working bytes of the frame in progress keep the bit-7 rules, and the synchronizer is between
frames during a dispatch (10_state R24, 42_synchronizer R156). -/
abbrev State.syncOk (s : State) : Prop :=
  (s.rdState = RD_DISPATCH → s.syncState = UNSYNC) ∧
    (1 ≤ s.syncState → s.syncWork.b0.msb = true) ∧
    (2 ≤ s.syncState → s.syncWork.b1.msb = false) ∧
    (3 ≤ s.syncState → s.syncWork.b2.msb = false) ∧
    (4 ≤ s.syncState → s.syncWork.b3.msb = false) ∧
    (5 ≤ s.syncState → s.syncWork.b4.msb = false) ∧
    (6 ≤ s.syncState → s.syncWork.b5.msb = false)

/-- What the engine may emit: a delivery to an external Recorder, a wire frame ENCODE gives, a
notification or a request to a Player, of at most a buffer of frames, and a response with a code of
30_encoding R110 whose value is 0 unless it is OK. -/
def eventOk (p : Params) : Event → Bool
  | .recDeliver id _ => decide (id ≠ LISTENER)
  | .pullReq player max => decide (player ≠ 0) && decide (max ≤ p.txBufFrames)
  | .txWrite w => w.markersOk && decide (w.p5.extractLsb' 0 3 = 0#3)
  | .underrun player => decide (player ≠ 0)
  | .resp code value => decide (code ≤ RESP_FULL) && (decide (code = RESP_OK) || decide (value = 0))

/-- The last notification lies in the past, unless the clock has gone back (10_state R41). -/
def State.underrunPast (s : State) : Bool :=
  match s.underrunLast with
  | none => true
  | some last => s.clockBack || decide (last ≤ s.now)

/-- Every event of the trace is one the engine may emit, the write in flight is the wire frame of
such an event (10_state R39), and the last notification lies in the past. -/
abbrev State.traceOk (s : State) : Prop :=
  (∀ e ∈ s.trace, eventOk s.params e = true) ∧
    (s.txState = TX_WRITE_WAIT → eventOk s.params (.txWrite s.txOut) = true) ∧
    s.underrunPast = true

/-- The machine's invariant. -/
abbrev State.invariant (s : State) : Prop :=
  s.params.ok ∧ s.codesLegal ∧ s.storesOk ∧ s.registryOk ∧ s.sessionOk ∧ s.handshakeOk ∧
    s.failuresOk ∧ s.syncOk ∧ s.traceOk

end Sys2Proof.Machine
end

