-- ==== Sys2Proof/Certificates/Slice0/Obligations.lean ====
section
/-! DEFINITION. The statements for the provers. Each formalises the rules its docstring names; "log
<n>" is notes/assumptions/<n>.md. A field of the environment's side (`envRead`, `envWrite`,
`envPull`, `envAck`, `envDevice`, `envOpenDev`) is the model's own (log 2, log 13). -/

open Sys2Proof Sys2Proof.Machine

/-! ### Words -/

/-- Decoding the word of a well-formed instruction gives it back, for every instruction and every
operand (30_encoding R101, R107, R109, R112). -/
def Obligations.DecodingAnEncodingGivesTheInstruction : Prop :=
  ∀ i : Instr, wellFormed i = true → decode (encode i) = .instr i

/-- Each word has one meaning: the instruction a word decodes to is well formed and has that word. -/
def Obligations.EncodingADecodingGivesTheWord : Prop :=
  ∀ (c : Code) (i : Instr), decode c = .instr i → encode i = c ∧ wellFormed i = true

/-- A few words written out from the tables of 30_encoding and what they decode to. -/
def Obligations.WordsOfTheTablesDecode : Prop :=
  decode (.rxSel 0b00010000101#11) = .instr (.rxUnsyncHi 0b0000101#7) ∧
    decode (.rxSel 0b11000000111#11) = .instr (.rxP5ReadLo 0b0000111#7) ∧
    decode (.ctlCmd 0b0000001100000101#16) = .instr (.attachRec 0b00000101#8) ∧
    decode (.ctlCmd 0b0000011100000000#16) = .instr (.readStatus 0b00000000#8) ∧
    decode (.stepSel 0b00000100#8) = .instr .rdReadData ∧
    decode (.stepSel 0b01011000#8) = .instr .txThrottlePass ∧
    decode (.stepSel 0b10001000#8) = .instr .prPullDone ∧
    decode (.stepSel 0b11001100#8) = .instr .cuStartTx ∧
    decode (.wireOut ⟨0x85, 0x09, 0x0D, 0x0A, 0x67, 0x40, 0x1A⟩) =
      .instr (.codecEncode ⟨0x05, 0x12, 0x34, 0x56, 0x78, 0x1A⟩)

/-- A step runs the instruction its move selects: the one a word stands for, or the one whose
selector the engine forms for the agent that moves (30_encoding R111). An agent with no selector is
blocked. The rest of the moves stays (log 1). -/
def Obligations.AStepRunsTheSelectedInstruction : Prop :=
  ∀ (s : State) (i : Instr) (rest : List Turn), s.faulted = false →
    (∀ c, s.turns = .word c :: rest → decode c = .instr i →
        step s = exec i { s with turns := rest }) ∧
      (∀ a sel, s.turns = .agent a :: rest → selector a s = some sel →
        decode (.stepSel sel) = .instr i → step s = exec i { s with turns := rest }) ∧
      (∀ a, s.turns = .agent a :: rest → selector a s = none →
        step s = .next { s with turns := rest })

/-! ### The codec (41_codec) -/

/-- ENCODE's seven bytes by the formulas of R130, computed on unbounded numbers as 00_scope R9 says;
nothing of the engine's state is written (the result's place is log 10). -/
def Obligations.EncodePacksTheFrame : Prop :=
  ∀ (f : Frame) (s : State), ∃ w : WireFrame,
    exec (.codecEncode f) s = .next { s with codecWire := w } ∧
      w.status.toNat = f.status.toNat ||| 0x80 ∧
      w.p1.toNat = f.lever0.toNat >>> 1 ∧
      w.p2.toNat = ((f.lever0.toNat <<< 6) ||| (f.lever1.toNat >>> 2)) &&& 0x7F ∧
      w.p3.toNat = ((f.lever1.toNat <<< 5) ||| (f.lever2.toNat >>> 3)) &&& 0x7F ∧
      w.p4.toNat = ((f.lever2.toNat <<< 4) ||| (f.lever3.toNat >>> 4)) &&& 0x7F ∧
      w.p5.toNat = (f.lever3.toNat <<< 3) &&& 0x7F ∧
      w.p6.toNat = f.buttons.toNat &&& 0x7F ∧
      w.markersOk = true

/-- DECODE's six bytes by the formulas of R131, computed on unbounded numbers and truncated to 8
bits; nothing of the engine's state is written (the result's place is log 10). -/
def Obligations.DecodeUnpacksTheFrame : Prop :=
  ∀ (w : WireFrame) (s : State), w.markersOk = true → ∃ f : Frame,
    exec (.codecDecode w) s = .next { s with codecFrame := f } ∧
      f.status.toNat =
        (if s.params.statusKeepMarker then w.status.toNat else w.status.toNat &&& 0x7F) ∧
      f.lever0.toNat = ((w.p1.toNat <<< 1) ||| (w.p2.toNat >>> 6)) % 256 ∧
      f.lever1.toNat = ((w.p2.toNat <<< 2) ||| (w.p3.toNat >>> 5)) % 256 ∧
      f.lever2.toNat = ((w.p3.toNat <<< 3) ||| (w.p4.toNat >>> 4)) % 256 ∧
      f.lever3.toNat = ((w.p4.toNat <<< 4) ||| (w.p5.toNat >>> 3)) % 256 ∧
      f.buttons = w.p6 ∧ f.buttons.msb = false

/-- R132: decoding an encoded frame gives it back with `status` and `buttons` masked, and gives back
the frame itself exactly when the two bits the wire cannot carry stand as DECODE restores them. -/
def Obligations.DecodeAfterEncode : Prop :=
  ∀ (keep : Bool) (f : Frame),
    decodeFrame keep (encodeFrame f) =
        { f with
          status := if keep then f.status ||| 0x80 else f.status &&& 0x7F
          buttons := f.buttons &&& 0x7F } ∧
      (decodeFrame keep (encodeFrame f) = f ↔ f.status.msb = keep ∧ f.buttons.msb = false)

/-- R133: encoding a decoded frame gives it back with `p5[2:0]` cleared; ENCODE is injective on the
frames with `status[7] = 0` and `buttons[7] = 0`, and gives exactly the wire frames with
`p5[2:0] = 0`. -/
def Obligations.EncodeAfterDecode : Prop :=
  (∀ (keep : Bool) (w : WireFrame), w.markersOk = true →
      encodeFrame (decodeFrame keep w) = { w with p5 := w.p5 &&& 0xF8 }) ∧
    (∀ f g : Frame, f.encodable = true → g.encodable = true →
      encodeFrame f = encodeFrame g → f = g) ∧
    (∀ w : WireFrame, (∃ f : Frame, encodeFrame f = w) ↔ w.markersOk = true ∧ w.p5 &&& 0x07 = 0)

/-- The shift and mask formulas of 41_codec R130 and R131 are the bit tables of 30_encoding R101 and
R105, which the decoder of words reads. -/
def Obligations.TheFormulasAreTheBitTable : Prop :=
  (∀ f : Frame, encodeFrame f = wireOfBits f) ∧
    (∀ w : WireFrame, w.markersOk = true → decodeFrame false w = bitsOfWire w)

/-! ### The synchronizer (42_synchronizer) -/

/-- R152: in `UNSYNC` a byte with bit 7 set is stored as the status byte. -/
def Obligations.AStatusByteIsAccepted : Prop :=
  ∀ (s : State) (data : BitVec 7), s.byteReady → s.syncState = UNSYNC →
    s.nextByte = statusByte data →
    exec (.rxUnsyncHi data) s =
        .next { s with
          rdPos := s.rdPos + 1
          syncWork := { s.syncWork with b0 := s.nextByte }
          syncState := STATUS_READ } ∧
      ∃ w, encode (.rxUnsyncHi data) = .rxSel w ∧ w &&& 0x780 = 0x080

/-- R153 and R154: a byte whose bit 7 is not the one the state asks for is discarded, the
synchronizer goes to `UNSYNC`, and nothing else changes. -/
def Obligations.AViolatingByteIsDiscarded : Prop :=
  ∀ (s : State) (data : BitVec 7), s.byteReady →
    (∀ row ∈ [(Instr.rxStatusReadHi, STATUS_READ, 0x180#11), (Instr.rxP1ReadHi, P1_READ, 0x280#11),
        (Instr.rxP2ReadHi, P2_READ, 0x380#11), (Instr.rxP3ReadHi, P3_READ, 0x480#11),
        (Instr.rxP4ReadHi, P4_READ, 0x580#11), (Instr.rxP5ReadHi, P5_READ, 0x680#11)],
      s.syncState = row.2.1 → s.nextByte = statusByte data →
        exec (row.1 data) s = .next { s with rdPos := s.rdPos + 1, syncState := UNSYNC } ∧
          ∃ w, encode (row.1 data) = .rxSel w ∧ w &&& 0x780 = row.2.2) ∧
      (s.syncState = UNSYNC → s.nextByte = payloadByte data →
        exec (.rxUnsyncLo data) s = .next { s with rdPos := s.rdPos + 1, syncState := UNSYNC } ∧
          ∃ w, encode (.rxUnsyncLo data) = .rxSel w ∧ w &&& 0x780 = 0x000)

/-- R155: payload byte `pk` is stored in working byte `k`, the others stay, and the synchronizer
goes to state `k + 1`. -/
def Obligations.APayloadByteIsAccepted : Prop :=
  ∀ (s : State) (data : BitVec 7), s.byteReady → s.nextByte = payloadByte data →
    ∀ row ∈ [(Instr.rxStatusReadLo, 1, 0x100#11), (Instr.rxP1ReadLo, 2, 0x200#11),
        (Instr.rxP2ReadLo, 3, 0x300#11), (Instr.rxP3ReadLo, 4, 0x400#11),
        (Instr.rxP4ReadLo, 5, 0x500#11)],
      s.syncState.toNat = row.2.1 →
        ∃ t, exec (row.1 data) s = .next t ∧
          t.syncState.toNat = row.2.1 + 1 ∧
          (∀ k, k < 6 → t.syncWork.byte k = if k = row.2.1 then s.nextByte else s.syncWork.byte k) ∧
          t = { s with rdPos := s.rdPos + 1, syncState := t.syncState, syncWork := t.syncWork } ∧
          ∃ w, encode (row.1 data) = .rxSel w ∧ w &&& 0x780 = row.2.2

/-- R156: `p6` completes the frame; its decoding, the snapshot of the registry and the start of the
dispatch are one step. -/
def Obligations.TheLastPayloadByteCompletesTheFrame : Prop :=
  ∀ (s : State) (data : BitVec 7), s.byteReady → s.syncState = P5_READ →
    s.nextByte = payloadByte data →
    exec (.rxP5ReadLo data) s =
        .next { s with
          rdPos := s.rdPos + 1
          dispFrame := decodeFrame s.params.statusKeepMarker
            ⟨s.syncWork.b0, s.syncWork.b1, s.syncWork.b2, s.syncWork.b3, s.syncWork.b4,
              s.syncWork.b5, s.nextByte⟩
          dispList := s.recReg
          dispIdx := 0
          syncState := UNSYNC
          rdState := RD_DISPATCH } ∧
      ∃ w, encode (.rxP5ReadLo data) = .rxSel w ∧ w &&& 0x780 = 0x600

/-- `RD.BYTE_STEP` is the row that `rx_sel = {sync_state, x}` selects (42_synchronizer R151,
30_encoding R107), in every state in which the word selects one. -/
def Obligations.AByteStepIsTheRowItsWordSelects : Prop :=
  ∀ (s : State) (i : Instr), decode (.rxSel s.rxSel) = .instr i → exec .rdByteStep s = exec i s

/-- R157: the whole transition table, as what `RD.BYTE_STEP` does. -/
def Obligations.AByteStepFollowsTheTransitionTable : Prop :=
  ∀ s : State, s.byteReady →
    (s.nextByte.msb = true → s.syncState = UNSYNC →
        exec .rdByteStep s =
          .next { s with
            rdPos := s.rdPos + 1
            syncWork := { s.syncWork with b0 := s.nextByte }
            syncState := STATUS_READ }) ∧
      (s.nextByte.msb = true → s.syncState ≠ UNSYNC →
        exec .rdByteStep s = .next { s with rdPos := s.rdPos + 1, syncState := UNSYNC }) ∧
      (s.nextByte.msb = false → s.syncState = UNSYNC →
        exec .rdByteStep s = .next { s with rdPos := s.rdPos + 1, syncState := UNSYNC }) ∧
      (s.nextByte.msb = false → s.syncState ≠ UNSYNC → s.syncState ≠ P5_READ →
        exec .rdByteStep s =
          .next { s with
            rdPos := s.rdPos + 1
            syncWork := s.syncWork.put s.syncState.toNat s.nextByte
            syncState := s.syncState + 1 }) ∧
      (s.nextByte.msb = false → s.syncState = P5_READ →
        exec .rdByteStep s =
          .next { s with
            rdPos := s.rdPos + 1
            dispFrame := decodeFrame s.params.statusKeepMarker (s.syncWork.wire s.nextByte)
            dispList := s.recReg
            dispIdx := 0
            syncState := UNSYNC
            rdState := RD_DISPATCH })

/-- The resync property (42_synchronizer R165). From `UNSYNC`, or from anywhere inside a frame when
the next byte has its bit 7 flipped, any number of payload bytes is skipped and the next well-formed
wire frame is decoded and its dispatch started, byte step by byte step; nothing is dispatched
before. -/
def Obligations.TheNextWellFormedFrameIsDelivered : Prop :=
  ∀ (s : State) (flipped skipped : List Byte) (w : WireFrame),
    s.ready .rd → s.rdState = RD_PROCESS →
    (s.syncState = UNSYNC ∧ flipped = [] ∨
      s.syncState ≠ UNSYNC ∧ ∃ x : Byte, x.msb = true ∧ flipped = [x]) →
    (∀ x ∈ skipped, x.msb = false) → w.markersOk = true →
    s.bytesAt s.rdPos (flipped ++ skipped ++ w.bytes) = true →
    s.rdPos + (flipped ++ skipped ++ w.bytes).length ≤ s.rdLen →
    ∃ t, byteSteps (flipped ++ skipped ++ w.bytes).length s = some t ∧
      t.dispFrame = decodeFrame s.params.statusKeepMarker w ∧
      t = { s with
        rdPos := s.rdPos + (flipped ++ skipped ++ w.bytes).length
        syncWork := t.syncWork
        syncState := UNSYNC
        dispFrame := t.dispFrame
        dispList := s.recReg
        dispIdx := 0
        rdState := RD_DISPATCH }

/-! ### The Reader (42_synchronizer) -/

/-- R158: a read's bytes stand in the Reader's buffer from index 0 on, every other byte of it stays,
and the Reader goes to process them; `sync_state` and the working bytes stay. -/
def Obligations.AReadFillsTheReaderBuffer : Prop :=
  ∀ (s : State) (bytes : List Byte), s.ready .rd → s.rdState = RD_READ →
    s.envRead = some (.data bytes) → bytes ≠ [] → bytes.length ≤ s.params.rdBufBytes →
    ∃ t, exec .rdReadData s = .next t ∧
      (Memory.wf Config.unwrittenByte s.rdBuf = true →
        ∀ i, t.rdByte i = if i < bytes.length then bytes.getD i 0 else s.rdByte i) ∧
      t = { s with
        rdBuf := t.rdBuf
        rdLen := bytes.length
        rdPos := 0
        envRead := none
        rdState := RD_PROCESS }

/-- R159, and R160 with 60_exceptions R282, R283: an empty read puts the Reader to sleep until
`RD_IDLE_SLEEP_MS` from now; a read error stores its code and ends the Reader; nothing else of the
engine changes. -/
def Obligations.AnEmptyReadSleepsAndAReadErrorEnds : Prop :=
  ∀ s : State, s.ready .rd → s.rdState = RD_READ →
    (s.envRead = some (.data []) → s.clockBack = false →
        exec .rdReadEmpty s =
          .next { s with
            rdSleepUntil := s.now + s.params.rdIdleSleepMs
            envRead := none
            rdState := RD_SLEEP }) ∧
      (∀ code : Byte, s.envRead = some (.error code) →
        exec .rdReadFail s =
          .next { s with
            rdFailValid := true
            rdFailCode := code
            rdState := RD_FAILED
            envRead := none }) ∧
      encode .rdReadEmpty = .stepSel 0x05 ∧ encode .rdReadFail = .stepSel 0x06

/-- R161, R162 and R164: the sleep ends at its deadline and not before; the bytes of the read are
used up; the dispatch has reached every Recorder. Each only moves the Reader. That a step held leaves
the state as it is, is log 4; that the clock has not gone back, log 3. -/
def Obligations.TheReaderMovesOn : Prop :=
  ∀ s : State, s.ready .rd →
    (s.rdState = RD_SLEEP → s.clockBack = false → s.rdSleepUntil ≤ s.now →
        exec .rdSleepDone s = .next { s with rdState := RD_READ }) ∧
      (s.rdState = RD_SLEEP → s.clockBack = false → s.now < s.rdSleepUntil →
        exec .rdSleepDone s = .next s) ∧
      (s.rdState = RD_PROCESS → s.rdPos = s.rdLen →
        exec .rdBufDone s = .next { s with rdState := RD_READ }) ∧
      (s.rdState = RD_DISPATCH → s.dispIdx = s.dispList.length →
        exec .rdDispatchEnd s = .next { s with rdState := RD_PROCESS }) ∧
      encode .rdSleepDone = .stepSel 0x10 ∧ encode .rdBufDone = .stepSel 0x09 ∧
      encode .rdDispatchEnd = .stepSel 0x0E

/-- R163: an external Recorder that accepts the frame is delivered it, and one that has not holds the
Reader (a held step: log 4; the acceptance: log 2, log 16). -/
def Obligations.AnExternalRecorderIsDelivered : Prop :=
  ∀ (s : State) (id : Byte), s.ready .rd → s.rdState = RD_DISPATCH →
    s.dispList[s.dispIdx]? = some id → id ≠ 0 →
    (s.envAck = some id →
        exec .rdDispatchExt s =
          .next { s.after (.recDeliver id s.dispFrame) with
            dispIdx := s.dispIdx + 1
            envAck := none }) ∧
      (s.envAck ≠ some id → exec .rdDispatchExt s = .next s)

/-- 43_transmitter R210: the feedback listener takes the low 6 bits of the frame's status, emits
nothing and lets the dispatch go on. -/
def Obligations.TheFeedbackStepSetsFill : Prop :=
  ∀ s : State, s.ready .rd → s.rdState = RD_DISPATCH → s.dispList[s.dispIdx]? = some 0 →
    ∃ t, exec .rdFeedback s = .next t ∧
      t.fill.toNat = s.dispFrame.status.toNat &&& 0x3F ∧
      t = { s with fill := t.fill, dispIdx := s.dispIdx + 1 } ∧
      encode .rdFeedback = .stepSel 0x0D

/-! ### The Transmitter (43_transmitter) -/

/-- R193 and R200 over R192: the need is raised where none is out, and a need that is out holds the
step (that a held step leaves the state as it is, is log 4). -/
def Obligations.ANeedIsRaisedOnlyWhereNoneIsOut : Prop :=
  ∀ s : State, s.ready .tx →
    (s.txState = TX_PRELOAD → s.need = false →
        exec .txPreload s = .next { s with need := true, txState := TX_SWAP }) ∧
      (s.txState = TX_PRELOAD → s.need = true → exec .txPreload s = .next s) ∧
      (s.txState = TX_HALF_NEED → s.need = false →
        exec .txHalfNeed s = .next { s with need := true, txState := TX_THROTTLE }) ∧
      (s.txState = TX_HALF_NEED → s.need = true → exec .txHalfNeed s = .next s) ∧
      encode .txPreload = .stepSel 0x44 ∧ encode .txHalfNeed = .stepSel 0x54

/-- R194: a swap exchanges the roles of the buffers and copies nothing; a pull in flight, which holds
the lock, holds both steps of `TX_SWAP` (R194, R195, 20_memory R81; that a held step leaves the state
as it is, is log 4). -/
def Obligations.ASwapExchangesTheBuffers : Prop :=
  ∀ s : State, s.ready .tx → s.txState = TX_SWAP →
    (s.lock = false → 0 < s.cnt (!s.wsel) →
        exec .txSwapOk s = .next { s with wsel := !s.wsel, widx := 0, txState := TX_NEXT }) ∧
      (s.lock = true → exec .txSwapOk s = .next s ∧ exec .txSwapUnderrun s = .next s) ∧
      encode .txSwapOk = .stepSel 0x48

/-- R195 and R196: a swap that finds the client buffer empty swaps nothing and waits; the attached
Player is notified if none was notified before or the interval has passed. -/
def Obligations.AnUnderrunIsNotifiedAtMostOncePerInterval : Prop :=
  ∀ s : State, s.ready .tx → s.txState = TX_SWAP → s.lock = false → s.cnt (!s.wsel) = 0 →
    s.clockBack = false →
    ((s.player ≠ 0 ∧
          ∀ last, s.underrunLast = some last →
            s.params.underrunMinIntervalMs ≤ (s.now : Int) - last) →
        exec .txSwapUnderrun s =
          .next { s.after (.underrun s.player) with
            underrunLast := some s.now
            txWaitUntil := s.now + s.params.underrunRetryMs
            txState := TX_UNDERRUN_WAIT }) ∧
      (¬(s.player ≠ 0 ∧
          ∀ last, s.underrunLast = some last →
            s.params.underrunMinIntervalMs ≤ (s.now : Int) - last) →
        exec .txSwapUnderrun s =
          .next { s with
            txWaitUntil := s.now + s.params.underrunRetryMs
            txState := TX_UNDERRUN_WAIT }) ∧
      encode .txSwapUnderrun = .stepSel 0x49

/-- R197: after the wait the swap is tried again, with a new need exactly when none is out and the
client buffer is still empty (a held step: log 4; a clock that has not gone back: log 3). -/
def Obligations.AnUnderrunIsRetried : Prop :=
  ∀ s : State, s.ready .tx → s.txState = TX_UNDERRUN_WAIT → s.clockBack = false →
    (s.txWaitUntil ≤ s.now →
        exec .txUnderrunRetry s =
          .next { s with
            need := s.need || decide (s.cnt (!s.wsel) = 0)
            txState := TX_SWAP }) ∧
      (s.now < s.txWaitUntil → exec .txUnderrunRetry s = .next s) ∧
      encode .txUnderrunRetry = .stepSel 0x4C

/-- R198, R199 and R201: in `TX_NEXT` the buffer is drained, or its half point is reached, or the
next frame is due; the half point is that of the ready count, rounded down. -/
def Obligations.TheMainLoopDecidesTheNextMove : Prop :=
  ∀ s : State, s.ready .tx → s.txState = TX_NEXT →
    (s.widx = s.cnt s.wsel →
        exec .txDrainEnd s =
          .next { s with
            cnt0 := if s.wsel then s.cnt0 else 0
            cnt1 := if s.wsel then 0 else s.cnt1
            widx := 0
            txState := TX_SWAP }) ∧
      (s.widx < s.cnt s.wsel → s.widx = s.cnt s.wsel / 2 →
        exec .txHalfPoint s = .next { s with txState := TX_HALF_NEED }) ∧
      (s.widx < s.cnt s.wsel → s.widx ≠ s.cnt s.wsel / 2 →
        exec .txNextFrame s = .next { s with txState := TX_THROTTLE }) ∧
      encode .txDrainEnd = .stepSel 0x50 ∧ encode .txHalfPoint = .stepSel 0x51 ∧
      encode .txNextFrame = .stepSel 0x52

/-- R202: at or below the mark, the frame in slot `widx` of the write buffer is encoded and its write
issued, in one step; above the mark the step is held (a held step leaves the state as it is: log 4). -/
def Obligations.AWriteIssuesAtOrBelowTheMark : Prop :=
  ∀ s : State, s.ready .tx → s.txState = TX_THROTTLE →
    (s.fill.toNat ≤ s.params.hwm.toNat → s.widx < s.params.txBufFrames →
        exec .txThrottlePass s =
          .next { s.after (.txWrite (encodeFrame (s.slot s.wsel s.widx))) with
            txOut := encodeFrame (s.slot s.wsel s.widx)
            txState := TX_WRITE_WAIT }) ∧
      (s.params.hwm.toNat < s.fill.toNat → exec .txThrottlePass s = .next s) ∧
      encode .txThrottlePass = .stepSel 0x58

/-- R203 and R204: above the mark nothing is written and the loop waits; after the wait `fill` is
checked again, and not before (a held step: log 4; a clock that has not gone back: log 3). -/
def Obligations.AboveTheMarkTheLoopWaits : Prop :=
  ∀ s : State, s.ready .tx → s.clockBack = false →
    (s.txState = TX_THROTTLE → s.params.hwm.toNat < s.fill.toNat →
        exec .txThrottleHold s =
          .next { s with
            txWaitUntil := s.now + s.params.throttlePollMs
            txState := TX_THROTTLE_WAIT }) ∧
      (s.txState = TX_THROTTLE_WAIT → s.txWaitUntil ≤ s.now →
        exec .txThrottleRecheck s = .next { s with txState := TX_THROTTLE }) ∧
      (s.txState = TX_THROTTLE_WAIT → s.now < s.txWaitUntil →
        exec .txThrottleRecheck s = .next s) ∧
      encode .txThrottleHold = .stepSel 0x59 ∧ encode .txThrottleRecheck = .stepSel 0x5C

/-- R205, and R206 with 60_exceptions R282, R284: a completed write moves the loop to the next frame;
a write error stores its code and ends the main loop, `widx` stays at the failed frame and the
Producer goes on. -/
def Obligations.AWriteEndsOkOrEndsTheMainLoop : Prop :=
  ∀ s : State, s.ready .tx → s.txState = TX_WRITE_WAIT →
    (s.envWrite = some .ok →
        exec .txWriteOk s =
          .next { s with widx := s.widx + 1, envWrite := none, txState := TX_NEXT }) ∧
      (∀ code : Byte, s.envWrite = some (.error code) →
        exec .txWriteFail s =
          .next { s with
            txFailValid := true
            txFailCode := code
            txState := TX_FAILED
            envWrite := none }) ∧
      encode .txWriteOk = .stepSel 0x60 ∧ encode .txWriteFail = .stepSel 0x61

/-! ### The Producer (43_transmitter) -/

/-- R207 and R208: a need is answered by a pull request to the attached Player, for the room left in
the client buffer and under the lock; with no Player it is met with no frames; with no need both steps
are held (a held step leaves the state as it is: log 4). -/
def Obligations.ANeedIsPulledOrMetWithNothing : Prop :=
  ∀ s : State, s.ready .pr → s.prState = PR_WAIT_NEED →
    (s.need = true → s.player ≠ 0 →
        exec .prPullIssue s =
          .next { s.after (.pullReq s.player (s.params.txBufFrames - s.cnt (!s.wsel))) with
            pullPlayer := s.player
            pullMax := s.params.txBufFrames - s.cnt (!s.wsel)
            lock := true
            prState := PR_PULL_WAIT }) ∧
      (s.need = true → s.player = 0 → exec .prPullNone s = .next { s with need := false }) ∧
      (s.need = false → exec .prPullIssue s = .next s ∧ exec .prPullNone s = .next s) ∧
      encode .prPullIssue = .stepSel 0x84 ∧ encode .prPullNone = .stepSel 0x85

/-- R209: the Player's frames land behind the ready ones of the client buffer, every other slot of
both buffers stays, and the need and the lock are cleared. -/
def Obligations.APullFillsTheClientBuffer : Prop :=
  ∀ (s : State) (frames : List Frame), s.ready .pr → s.prState = PR_PULL_WAIT →
    s.envPull = some frames → frames.length ≤ s.pullMax →
    s.cnt (!s.wsel) + frames.length ≤ s.params.txBufFrames →
    ∃ t, exec .prPullDone s = .next t ∧
      (Memory.wf Config.unwrittenFrame (s.buf (!s.wsel)) = true →
        ∀ j, t.slot (!s.wsel) j =
          if s.cnt (!s.wsel) ≤ j ∧ j < s.cnt (!s.wsel) + frames.length then
            frames.getD (j - s.cnt (!s.wsel)) Frame.zero
          else s.slot (!s.wsel) j) ∧
      (∀ j, t.slot s.wsel j = s.slot s.wsel j) ∧
      t.cnt (!s.wsel) = s.cnt (!s.wsel) + frames.length ∧ t.cnt s.wsel = s.cnt s.wsel ∧
      t = { s with
        buf0 := t.buf0
        buf1 := t.buf1
        cnt0 := t.cnt0
        cnt1 := t.cnt1
        lock := false
        need := false
        envPull := none
        prState := PR_WAIT_NEED }

/-! ### The control unit (44_control) -/

/-- R242 to R244: OPEN with no session starts one, whatever its operand, and with one is a misuse; the
device's answer goes on to the starts of the loops, or answers OPEN_FAILED, which is no misuse. -/
def Obligations.OpenAsksForTheDevice : Prop :=
  (∀ (s : State) (dev : Byte), s.commandReady →
      (s.ssState = SS_CLOSED →
          exec (.openSession dev) s =
            .next { s with cuBusy := true, ssState := SS_OPENING, envOpenDev := some dev }) ∧
        (s.ssState ≠ SS_CLOSED →
          exec (.openSession dev) s = .next { s.after (.resp 0x01 0) with misuse := true })) ∧
    (∀ s : State, s.ready .cu → s.ssState = SS_OPENING →
      (s.envDevice = some .ok →
          exec .cuDeviceOpenOk s = .next { s with ssState := SS_START_RD, envDevice := none }) ∧
        (s.envDevice = some .error →
          exec .cuDeviceOpenFail s =
            .next { s.after (.resp 0x03 0) with
              ssState := SS_CLOSED
              cuBusy := false
              envDevice := none })) ∧
    (∀ dev : Byte, encode (.openSession dev) = .ctlCmd ((0x01 : Byte) ++ dev)) ∧
    encode .cuDeviceOpenOk = .stepSel 0xC4 ∧ encode .cuDeviceOpenFail = .stepSel 0xC5

/-- R245 with 42_synchronizer R168, and R246 with 43_transmitter R191: the loops are started, the
Reader first, and the OPEN is answered OK when both run. The Reader's start clears `disp_list` and
`disp_idx`, as R168 and 70_reset R324 say, or leaves them unchanged, as 10_state R55 says: which of the
two is a parameter of the model, and the statement holds for both (log 25). -/
def Obligations.TheLoopsAreStarted : Prop :=
  ∀ s : State, s.ready .cu →
    (s.ssState = SS_START_RD →
        exec .cuStartRd s =
          .next { s with
            syncState := UNSYNC
            rdLen := 0
            rdPos := 0
            dispList := if s.params.startKeepsDispatch then s.dispList else []
            dispIdx := if s.params.startKeepsDispatch then s.dispIdx else 0
            rdFailValid := false
            rdFailCode := 0
            rdState := RD_READ
            ssState := SS_START_TX }) ∧
      (s.ssState = SS_START_TX →
        exec .cuStartTx s =
          .next { s.after (.resp 0x00 0) with
            cnt0 := 0
            cnt1 := 0
            wsel := false
            widx := 0
            need := false
            lock := false
            fill := s.params.fillReset
            underrunLast := none
            txFailValid := false
            txFailCode := 0
            recReg := if 0 ∈ s.recReg then s.recReg else s.recReg ++ [0]
            txState := TX_PRELOAD
            prState := PR_WAIT_NEED
            ssState := SS_OPEN
            cuBusy := false }) ∧
      encode .cuStartRd = .stepSel 0xC8 ∧ encode .cuStartTx = .stepSel 0xCC

/-- R247: CLOSE with no session is a misuse; with the Transmitter in use it is one and closes
nothing; with only the Reader running it is one and leaves the Transmitter closed; else both are
closed. -/
def Obligations.CloseClosesTheTransmitterThenTheReader : Prop :=
  ∀ s : State, s.commandReady →
    (s.ssState = SS_CLOSED →
        exec (.closeSession 0) s = .next { s.after (.resp 0x01 0) with misuse := true }) ∧
      (s.ssState ≠ SS_CLOSED → s.transmitterInUse →
        exec (.closeSession 0) s = .next { s.after (.resp 0x01 0) with misuse := true }) ∧
      (s.ssState ≠ SS_CLOSED → ¬s.transmitterInUse → s.rdRunning = true →
        exec (.closeSession 0) s =
          .next { s.transmitterClosed.after (.resp 0x01 0) with misuse := true }) ∧
      (s.ssState ≠ SS_CLOSED → ¬s.transmitterInUse → s.rdRunning = false →
        exec (.closeSession 0) s =
          .next { s.transmitterClosed.after (.resp 0x00 0) with
            rdState := RD_STOPPED
            ssState := SS_CLOSED }) ∧
      encode (.closeSession 0) = .ctlCmd 0x0200

/-- R248 and R249: attaching a Recorder appends it unless it is there already or the registry is
full; detaching removes it and nothing else; id 0, the listener's, is answered ILLEGAL by both. -/
def Obligations.RecordersAreAttachedAndDetached : Prop :=
  ∀ (s : State) (id : Byte), s.commandReady →
    (id ≠ 0 → id ∈ s.recReg → exec (.attachRec id) s = .next (s.after (.resp 0x00 0))) ∧
      (id ≠ 0 → id ∉ s.recReg → (s.recReg.filter (· ≠ 0)).length = s.params.maxRecorders →
        exec (.attachRec id) s = .next (s.after (.resp 0x04 0))) ∧
      (id ≠ 0 → id ∉ s.recReg → (s.recReg.filter (· ≠ 0)).length ≠ s.params.maxRecorders →
        exec (.attachRec id) s =
          .next { s.after (.resp 0x00 0) with recReg := s.recReg ++ [id] }) ∧
      (id ≠ 0 → exec (.detachRec id) s =
        .next { s.after (.resp 0x00 0) with recReg := s.recReg.filter (· ≠ id) }) ∧
      (id = 0 → exec (.attachRec id) s = .next (s.after (.resp 0x02 0)) ∧
        exec (.detachRec id) s = .next (s.after (.resp 0x02 0))) ∧
      encode (.attachRec id) = .ctlCmd ((0x03 : Byte) ++ id) ∧
      encode (.detachRec id) = .ctlCmd ((0x04 : Byte) ++ id)

/-- R250 and R251: one Player at most; a second attach is a misuse and leaves the first attached;
detaching another id than the attached one changes nothing. -/
def Obligations.OnePlayerIsAttached : Prop :=
  ∀ (s : State) (id : Byte), s.commandReady → id ≠ 0 →
    (s.player = 0 →
        exec (.attachPlayer id) s = .next { s.after (.resp 0x00 0) with player := id }) ∧
      (s.player ≠ 0 →
        exec (.attachPlayer id) s = .next { s.after (.resp 0x01 0) with misuse := true }) ∧
      (s.player = id →
        exec (.detachPlayer id) s = .next { s.after (.resp 0x00 0) with player := 0 }) ∧
      (s.player ≠ id → exec (.detachPlayer id) s = .next (s.after (.resp 0x00 0))) ∧
      encode (.attachPlayer id) = .ctlCmd ((0x05 : Byte) ++ id) ∧
      encode (.detachPlayer id) = .ctlCmd ((0x06 : Byte) ++ id)

/-- R252 to R254 with 10_state R48 to R50: the three registers, field by field; reading one changes
nothing. -/
def Obligations.TheRegistersRead : Prop :=
  ∀ s : State, s.commandReady →
    (∃ v : BitVec 32, exec (.readStatus 0) s = .next (s.after (.resp 0x00 v)) ∧
        v.getLsbD 0 = decide (1 ≤ s.rdState.toNat ∧ s.rdState.toNat ≤ 4) ∧
        v.getLsbD 1 = decide (s.rdState.toNat = 5) ∧
        v.getLsbD 2 = decide (1 ≤ s.txState.toNat ∧ s.txState.toNat ≤ 8) ∧
        v.getLsbD 3 = decide (s.txState.toNat = 9) ∧
        v.getLsbD 4 = decide (s.prState.toNat = 2) ∧
        v.getLsbD 5 = s.need ∧
        v.getLsbD 6 = decide (s.player ≠ 0) ∧
        v.getLsbD 7 = s.misuse ∧
        v.extractLsb' 8 3 = s.ssState ∧
        v.extractLsb' 11 5 = 0#5 ∧
        v.extractLsb' 16 6 = s.fill ∧
        v.extractLsb' 22 2 = 0#2 ∧
        v.extractLsb' 24 8 = s.player) ∧
      (∃ v : BitVec 32, exec (.readRdFailure 0) s = .next (s.after (.resp 0x00 v)) ∧
        v.extractLsb' 0 8 = (if s.rdFailValid then s.rdFailCode else 0) ∧
        v.getLsbD 8 = s.rdFailValid ∧ v.extractLsb' 9 23 = 0#23) ∧
      (∃ v : BitVec 32, exec (.readTxFailure 0) s = .next (s.after (.resp 0x00 v)) ∧
        v.extractLsb' 0 8 = (if s.txFailValid then s.txFailCode else 0) ∧
        v.getLsbD 8 = s.txFailValid ∧ v.extractLsb' 9 23 = 0#23) ∧
      encode (.readStatus 0) = .ctlCmd 0x0700 ∧ encode (.readRdFailure 0) = .ctlCmd 0x0800 ∧
      encode (.readTxFailure 0) = .ctlCmd 0x0900

/-- R256: a reserved opcode and an illegal operand are answered ILLEGAL and change no state; OPEN has
no illegal operand. -/
def Obligations.IllegalCommandsChangeNothing : Prop :=
  ∀ s : State, s.commandReady →
    (∀ operand : Byte, operand ≠ 0 →
        ∀ i ∈ [Instr.closeSession operand, .readStatus operand, .readRdFailure operand,
            .readTxFailure operand],
          exec i s = .next (s.after (.resp 0x02 0))) ∧
      (∀ i ∈ [Instr.attachRec 0, .detachRec 0, .attachPlayer 0, .detachPlayer 0],
        exec i s = .next (s.after (.resp 0x02 0))) ∧
      (∀ (opcode operand : Byte) (rest : List Turn), opcode = 0 ∨ 0x0A ≤ opcode →
        s.turns = .word (.ctlCmd (opcode ++ operand)) :: rest →
        step s = .next { s.after (.resp 0x02 0) with turns := rest }) ∧
      (∀ dev : Byte, exec (.openSession dev) s ≠ .next (s.after (.resp 0x02 0)))

/-- R258: while an OPEN is in progress every command, reserved opcodes included, is answered MISUSE
and has no other effect. -/
def Obligations.CommandsDuringAnOpenAreMisuse : Prop :=
  ∀ s : State, s.ready .cu → s.cuBusy = true →
    (∀ operand : Byte,
        ∀ i ∈ [Instr.openSession operand, .closeSession operand, .attachRec operand,
            .detachRec operand, .attachPlayer operand, .detachPlayer operand, .readStatus operand,
            .readRdFailure operand, .readTxFailure operand],
          exec i s = .next { s.after (.resp 0x01 0) with misuse := true }) ∧
      (∀ (opcode operand : Byte) (rest : List Turn), opcode = 0 ∨ 0x0A ≤ opcode →
        s.turns = .word (.ctlCmd (opcode ++ operand)) :: rest →
        step s = .next { s.after (.resp 0x01 0) with misuse := true, turns := rest })

/-! ### The environment and model faults (60_exceptions) -/

/-- R288: an answer is taken only where a request is outstanding, and one with no request outstanding
is a model fault. The offers are the model's (log 2). -/
def Obligations.AnswersNeedARequest : Prop :=
  ∀ (s : State) (rest : List Turn), s.faulted = false →
    (∀ r, s.turns = .read r :: rest →
        (s.rdState = RD_READ ∧ s.envRead = none →
          step s = .next { s with turns := rest, envRead := some r }) ∧
        (s.rdState ≠ RD_READ → step s = .next { s with turns := rest, faulted := true })) ∧
      (∀ r, s.turns = .write r :: rest →
        (s.txState = TX_WRITE_WAIT ∧ s.envWrite = none →
          step s = .next { s with turns := rest, envWrite := some r }) ∧
        (s.txState ≠ TX_WRITE_WAIT → step s = .next { s with turns := rest, faulted := true })) ∧
      (∀ g, s.turns = .pull g :: rest →
        (s.prState = PR_PULL_WAIT ∧ s.envPull = none →
          step s = .next { s with turns := rest, envPull := some g }) ∧
        (s.prState ≠ PR_PULL_WAIT → step s = .next { s with turns := rest, faulted := true })) ∧
      (∀ id, s.turns = .ack id :: rest →
        (s.rdState = RD_DISPATCH ∧ s.dispList[s.dispIdx]? = some id ∧ id ≠ 0 ∧ s.envAck = none →
          step s = .next { s with turns := rest, envAck := some id }) ∧
        (s.rdState ≠ RD_DISPATCH ∨ s.dispList[s.dispIdx]? ≠ some id ∨ id = 0 →
          step s = .next { s with turns := rest, faulted := true })) ∧
      (∀ r, s.turns = .device r :: rest →
        (s.ssState = SS_OPENING ∧ s.envDevice = none →
          step s = .next { s with turns := rest, envDevice := some r }) ∧
        (s.ssState ≠ SS_OPENING → step s = .next { s with turns := rest, faulted := true }))

/-- R288: a read answer longer than the buffer, more frames than the pull asked for, and a buffer
index outside the buffer are model faults, which set `faulted` and change nothing else. -/
def Obligations.ValuesOutOfRangeAreModelFaults : Prop :=
  ∀ s : State,
    (∀ bytes, s.ready .rd → s.rdState = RD_READ → s.envRead = some (.data bytes) →
        s.params.rdBufBytes < bytes.length → 1 ≤ bytes.length →
        exec .rdReadData s = .next { s with faulted := true }) ∧
      (∀ frames, s.ready .pr → s.prState = PR_PULL_WAIT → s.envPull = some frames →
        s.pullMax < frames.length → exec .prPullDone s = .next { s with faulted := true }) ∧
      (∀ frames, s.ready .pr → s.prState = PR_PULL_WAIT → s.envPull = some frames →
        frames.length ≤ s.pullMax → frames ≠ [] →
        s.params.txBufFrames < s.cnt (!s.wsel) + frames.length →
        exec .prPullDone s = .next { s with faulted := true }) ∧
      (s.ready .tx → s.txState = TX_THROTTLE → s.fill ≤ s.params.hwm →
        s.params.txBufFrames ≤ s.widx → exec .txThrottlePass s = .next { s with faulted := true })

/-- R288: a clock that goes back is noted, and the next step that reads the clock is a model fault
(which steps read it: 60_exceptions R297; the note is log 3). -/
def Obligations.AClockGoneBackIsAModelFault : Prop :=
  ∀ s : State, s.faulted = false →
    (∀ t rest, s.turns = .clock t :: rest →
        step s =
          .next { s with turns := rest, now := t, clockBack := s.clockBack || decide (t < s.now) }) ∧
      (s.clockBack = true → s.reservedCode .rd = false →
        (s.rdState = RD_READ ∧ s.envRead = some (.data []) →
          exec .rdReadEmpty s = .next { s with faulted := true }) ∧
        (s.rdState = RD_SLEEP → exec .rdSleepDone s = .next { s with faulted := true })) ∧
      (s.clockBack = true → s.reservedCode .tx = false →
        (s.txState = TX_SWAP ∧ s.lock = false ∧ s.cnt (!s.wsel) = 0 →
          exec .txSwapUnderrun s = .next { s with faulted := true }) ∧
        (s.txState = TX_UNDERRUN_WAIT →
          exec .txUnderrunRetry s = .next { s with faulted := true }) ∧
        (s.txState = TX_THROTTLE ∧ s.params.hwm < s.fill →
          exec .txThrottleHold s = .next { s with faulted := true }) ∧
        (s.txState = TX_THROTTLE_WAIT →
          exec .txThrottleRecheck s = .next { s with faulted := true }))

/-- R288: any step of an agent whose state register holds a reserved code is a model fault. -/
def Obligations.ReservedCodesAreModelFaults : Prop :=
  ∀ (i : Instr) (a : Agent) (s : State), instrAgent i = some a → s.faulted = false →
    (a = .rd ∧ (6 ≤ s.rdState.toNat ∨ s.syncState.toNat = 7) ∨
      a = .tx ∧ 10 ≤ s.txState.toNat ∨
      a = .pr ∧ s.prState.toNat = 3 ∨
      a = .cu ∧ 5 ≤ s.ssState.toNat) →
    exec i s = .next { s with faulted := true }

/-- R288: once the run is faulted no step of any agent has a next state. -/
def Obligations.AFaultedRunHasNoStep : Prop :=
  ∀ s : State, s.faulted = true →
    step s = .fault .runFaulted ∧
      ∀ (i : Instr) (a : Agent), instrAgent i = some a → exec i s = .fault .runFaulted

/-! ### Rules about every step -/

/-- 00_scope R11: a step whose selector is not the one its agent forms is held: nothing changes. -/
def Obligations.AStepNotEnabledIsHeld : Prop :=
  ∀ (i : Instr) (a : Agent) (sel : BitVec 8) (s : State), instrAgent i = some a →
    encode i = .stepSel sel → s.ready a → selector a s ≠ some sel → exec i s = .next s

/-- 60_exceptions R293 (1): within one agent at most one step is enabled: of two steps of one agent,
at most one changes anything. -/
def Obligations.OneStepPerAgentIsEnabled : Prop :=
  ∀ (i j : Instr) (a : Agent) (si sj : BitVec 8) (s t u : State), s.ready a →
    instrAgent i = some a → instrAgent j = some a →
    encode i = .stepSel si → encode j = .stepSel sj →
    exec i s = .next t → t ≠ s → exec j s = .next u → u ≠ s → i = j

/-- R214: a `TxWrite` is emitted only in a step in which `fill` is at or below the mark. -/
def Obligations.EveryWriteIsIssuedAtOrBelowTheMark : Prop :=
  ∀ (s t : State) (w : WireFrame), step s = .next t → t.trace = s.trace ++ [.txWrite w] →
    s.fill.toNat ≤ s.params.hwm.toNat ∧ s.txState = TX_THROTTLE ∧ t.txState = TX_WRITE_WAIT

/-- R216: a notification goes to the attached Player, at least the interval after the last one, sends
no frame and does not stop the Transmitter; between notifications the time of the last one is kept,
until the Transmitter starts again. -/
def Obligations.NotificationsAreApart : Prop :=
  ∀ s t : State, step s = .next t →
    (∀ p, t.trace = s.trace ++ [.underrun p] →
        p = s.player ∧ p ≠ 0 ∧ t.underrunLast = some s.now ∧ t.txState = TX_UNDERRUN_WAIT ∧
          ∀ last, s.underrunLast = some last → last + s.params.underrunMinIntervalMs ≤ s.now) ∧
      ((∀ p, t.trace ≠ s.trace ++ [.underrun p]) →
        t.underrunLast = s.underrunLast ∨ t.underrunLast = none ∧ t.txState = TX_PRELOAD)

/-- 10_state R22: each shared field is written by the steps that own it and by no other. -/
def Obligations.FieldsHaveTheirOwners : Prop :=
  ∀ (i : Instr) (s t : State), exec i s = .next t →
    (t.need ≠ s.need →
        t.need = true ∧ i ∈ [Instr.txPreload, .txHalfNeed, .txUnderrunRetry] ∨
          t.need = false ∧ i ∈ [Instr.prPullNone, .prPullDone, .cuStartTx]) ∧
      (t.lock ≠ s.lock → i ∈ [Instr.prPullIssue, .prPullDone, .cuStartTx]) ∧
      (t.fill ≠ s.fill → i ∈ [Instr.rdFeedback, .cuStartTx]) ∧
      (t.recReg ≠ s.recReg ∨ t.player ≠ s.player ∨ t.ssState ≠ s.ssState ∨ t.misuse ≠ s.misuse ∨
          t.cuBusy ≠ s.cuBusy →
        instrAgent i = some .cu) ∧
      (t.buf0 ≠ s.buf0 ∨ t.buf1 ≠ s.buf1 → i = .prPullDone) ∧
      (t.wsel ≠ s.wsel → i ∈ [Instr.txSwapOk, .cuStartTx]) ∧
      (t.rdState ≠ s.rdState ∨ t.syncState ≠ s.syncState ∨ t.rdPos ≠ s.rdPos ∨
          t.dispList ≠ s.dispList →
        instrAgent i = some .rd ∨ instrAgent i = some .cu) ∧
      (t.rdBuf ≠ s.rdBuf → i = .rdReadData) ∧
      (t.txState ≠ s.txState ∨ t.txOut ≠ s.txOut →
        instrAgent i = some .tx ∨ instrAgent i = some .cu) ∧
      (t.prState ≠ s.prState → instrAgent i = some .pr ∨ instrAgent i = some .cu)

/-- 10_state R30: `disp_list` and `disp_idx` mean nothing outside a dispatch. Two states not in
`RD_DISPATCH` that differ in them alone take the same step, events included: it writes both anew and
ends in one state, or it leaves both and ends outside a dispatch. So a Reader's start that clears them
(42_synchronizer R168, 70_reset R324) and one that leaves them (10_state R55) are followed by the same
run but for the two registers themselves (log 25). -/
def Obligations.TheDispatchRegistersAreDeadOutsideADispatch : Prop :=
  ∀ (s t : State) (ids : List Byte) (idx : Nat), s.rdState ≠ RD_DISPATCH → step s = .next t →
    step (s.withDispatch ids idx) = .next t ∨
      t.rdState ≠ RD_DISPATCH ∧
        step (s.withDispatch ids idx) = .next (t.withDispatch ids idx)

/-- What no step undoes (10_state R46, R52; 70_reset R322): the trace is only appended to, by one
event at most; `misuse` stays set; the parameters stay. -/
def Obligations.WhatNoStepUndoes : Prop :=
  ∀ s t : State, step s = .next t →
    (t.trace = s.trace ∨ ∃ e, t.trace = s.trace ++ [e]) ∧
      (s.misuse = true → t.misuse = true) ∧ t.params = s.params

/-! ### Reset and what every step keeps -/

/-- 10_state R55 and 70_reset R320, R321: the fields the spec gives a value at block reset, and that no
loop step is enabled there. -/
def Obligations.BlockReset : Prop :=
  State.reset.syncState = UNSYNC ∧ State.reset.rdState = RD_STOPPED ∧
    State.reset.rdLen = 0 ∧ State.reset.rdPos = 0 ∧
    State.reset.rdFailValid = false ∧ State.reset.rdFailCode = 0 ∧
    State.reset.recReg = [] ∧ State.reset.dispList = [] ∧ State.reset.dispIdx = 0 ∧
    State.reset.cnt0 = 0 ∧ State.reset.cnt1 = 0 ∧ State.reset.wsel = false ∧
    State.reset.widx = 0 ∧ State.reset.need = false ∧ State.reset.lock = false ∧
    State.reset.fill = State.reset.params.fillReset ∧ State.reset.txState = TX_STOPPED ∧
    State.reset.txFailValid = false ∧ State.reset.txFailCode = 0 ∧
    State.reset.underrunLast = none ∧ State.reset.player = 0 ∧
    State.reset.prState = PR_STOPPED ∧ State.reset.pullPlayer = 0 ∧ State.reset.pullMax = 0 ∧
    State.reset.ssState = SS_CLOSED ∧ State.reset.misuse = false ∧ State.reset.cuBusy = false ∧
    State.reset.faulted = false ∧ State.reset.trace = [] ∧ ∀ a : Agent, selector a State.reset = none

/-- The machine's invariant holds at block reset. It rests on the model's choices there: the stores
with nothing listed (log 7, log 8), no answer on offer and the clock at 0 (log 9), and the parameters
in their ranges (log 6). -/
def Obligations.ResetHasTheInvariant : Prop := State.reset.invariant

/-- No state register comes to hold a reserved code (10_state R21). -/
def Obligations.StateCodesStayLegal : Prop :=
  ∀ s t : State, s.codesLegal → step s = .next t → t.codesLegal

/-- The stores stay canonical and within their capacity, and the Reader's and the dispatch's
positions stay in range (10_state R26, R30; 20_memory R72). The canonical form is the model's own
(log 8). -/
def Obligations.StoresStayInRange : Prop :=
  ∀ s t : State, s.storesOk → step s = .next t → t.storesOk

/-- The registry and its snapshot stay lists without duplicates and within `MAX_RECORDERS`
(10_state R29, R30). -/
def Obligations.TheRegistryStaysBounded : Prop :=
  ∀ s t : State, s.registryOk → step s = .next t → t.registryOk

/-- The loops' states stay those the session's allows (10_state R45, R47; 90_conflicts C15), the
listener stays registered exactly while the Transmitter is not stopped, and answers stay on offer
only where a request is outstanding. -/
def Obligations.TheSessionStaysConsistent : Prop :=
  ∀ s t : State, s.sessionOk → step s = .next t → t.sessionOk

/-- The handshake, the lock and the buffers stay as 20_memory R81, R83 and 43_transmitter R212 say: at
most one pull is out, it is out under the lock and for an empty client buffer, frames wait in the
client buffer only while no need is out, and no need is out at the half point. -/
def Obligations.TheHandshakeStaysConsistent : Prop :=
  ∀ s t : State, s.handshakeOk → step s = .next t → t.handshakeOk

/-- The stored failure values stay as 10_state R28 and R40 say, and the working bytes of a frame in
progress keep the bit-7 rules, so DECODE is applied only to wire frames that keep them (10_state R24,
41_codec R131). -/
def Obligations.FailureValuesAndWorkingBytesStayConsistent : Prop :=
  ∀ s t : State, step s = .next t →
    (s.failuresOk → t.failuresOk) ∧ (s.syncOk → t.syncOk)

/-- Every event the engine emits is well formed: in particular every byte sequence written is a wire
frame ENCODE gives (00_scope R12, 41_codec R133, 60_exceptions R294). The last notification lies in
the past unless the clock has gone back, which the model notes in `clockBack` (log 3). -/
def Obligations.EmittedEventsStayWellFormed : Prop :=
  ∀ s t : State, s.traceOk → step s = .next t → t.traceOk
end

