-- ==== Sys2Proof/Laws/Bits.lean ====
section
/-! SUPPORT. Concatenated bit fields as numbers, at the widths the formats of the spec use. A
concatenation's width is written as a sum and the word's as its value, so each pair of widths has
its own lemma for `simp`. -/

namespace Sys2Proof.Laws

/-- The number of `{x, y}` (00_scope R7). -/
theorem toNat_concat {n m : Nat} (x : BitVec n) (y : BitVec m) :
    (x ++ y).toNat = x.toNat * 2 ^ m + y.toNat := by
  rw [BitVec.toNat_append, ← Nat.shiftLeft_add_eq_or_of_lt y.isLt, Nat.shiftLeft_eq]

theorem toNat_concat_1_7 (x : BitVec 1) (y : BitVec 7) :
    @BitVec.toNat 8 (x ++ y) = x.toNat * 128 + y.toNat := toNat_concat x y

theorem toNat_concat_7_1 (x : BitVec 7) (y : BitVec 1) :
    @BitVec.toNat 8 (x ++ y) = x.toNat * 2 + y.toNat := toNat_concat x y

theorem toNat_concat_6_2 (x : BitVec 6) (y : BitVec 2) :
    @BitVec.toNat 8 (x ++ y) = x.toNat * 4 + y.toNat := toNat_concat x y

theorem toNat_concat_5_3 (x : BitVec 5) (y : BitVec 3) :
    @BitVec.toNat 8 (x ++ y) = x.toNat * 8 + y.toNat := toNat_concat x y

theorem toNat_concat_4_4 (x : BitVec 4) (y : BitVec 4) :
    @BitVec.toNat 8 (x ++ y) = x.toNat * 16 + y.toNat := toNat_concat x y

theorem toNat_concat_1_6 (x : BitVec 1) (y : BitVec 6) :
    @BitVec.toNat 7 (x ++ y) = x.toNat * 64 + y.toNat := toNat_concat x y

theorem toNat_concat_2_5 (x : BitVec 2) (y : BitVec 5) :
    @BitVec.toNat 7 (x ++ y) = x.toNat * 32 + y.toNat := toNat_concat x y

theorem toNat_concat_3_4 (x : BitVec 3) (y : BitVec 4) :
    @BitVec.toNat 7 (x ++ y) = x.toNat * 16 + y.toNat := toNat_concat x y

theorem toNat_concat_4_3 (x : BitVec 4) (y : BitVec 3) :
    @BitVec.toNat 7 (x ++ y) = x.toNat * 8 + y.toNat := toNat_concat x y

theorem toNat_concat_3_8 (x : BitVec 3) (y : BitVec 8) :
    @BitVec.toNat 11 (x ++ y) = x.toNat * 256 + y.toNat := toNat_concat x y

theorem toNat_concat_4_7 (x : BitVec 4) (y : BitVec 7) :
    @BitVec.toNat 11 (x ++ y) = x.toNat * 128 + y.toNat := toNat_concat x y

theorem toNat_concat_8_8 (x : BitVec 8) (y : BitVec 8) :
    @BitVec.toNat 16 (x ++ y) = x.toNat * 256 + y.toNat := toNat_concat x y

/-- The number of the slice `v[lo+len-1 : lo]` (00_scope R7). -/
theorem toNat_slice {n : Nat} (v : BitVec n) (lo len : Nat) :
    (v.extractLsb' lo len).toNat = v.toNat / 2 ^ lo % 2 ^ len := by
  rw [BitVec.extractLsb'_toNat, Nat.shiftRight_eq_div_pow]

/-- Bit 7 of a byte is set when its number is at least 128. -/
theorem msb_byte (x : Byte) : x.msb = decide (128 ≤ x.toNat) := BitVec.msb_eq_decide x

/-- A byte's number. -/
theorem byte_lt (x : Byte) : x.toNat < 256 := x.isLt

/-- A byte is its bit 7 and its low seven bits (30_encoding R106). -/
theorem byte_eq_class_data (x : Byte) (c : BitVec 1) (data : BitVec 7) :
    x = (c ++ data : BitVec 8) ↔ x.toNat = c.toNat * 128 + data.toNat := by
  rw [← BitVec.toNat_inj]
  exact Iff.of_eq (congrArg (x.toNat = ·) (toNat_concat_1_7 c data))

end Sys2Proof.Laws
end

