-- ==== Sys2Proof/Laws/State.lean ====
section
/-! SUPPORT. One lemma per field for every named update of the state, so that no proof unfolds one;
and for the buffer updates, which choose the field by the buffer's index. -/

namespace Sys2Proof.Machine

variable (s : State)

/-! `emit` -/

@[simp] theorem State.emit_params (e : Event) : (s.emit e).params = s.params := rfl
@[simp] theorem State.emit_syncState (e : Event) : (s.emit e).syncState = s.syncState := rfl
@[simp] theorem State.emit_syncWork (e : Event) : (s.emit e).syncWork = s.syncWork := rfl
@[simp] theorem State.emit_rdState (e : Event) : (s.emit e).rdState = s.rdState := rfl
@[simp] theorem State.emit_rdBuf (e : Event) : (s.emit e).rdBuf = s.rdBuf := rfl
@[simp] theorem State.emit_rdLen (e : Event) : (s.emit e).rdLen = s.rdLen := rfl
@[simp] theorem State.emit_rdPos (e : Event) : (s.emit e).rdPos = s.rdPos := rfl
@[simp] theorem State.emit_rdSleepUntil (e : Event) : (s.emit e).rdSleepUntil = s.rdSleepUntil := rfl
@[simp] theorem State.emit_rdFailValid (e : Event) : (s.emit e).rdFailValid = s.rdFailValid := rfl
@[simp] theorem State.emit_rdFailCode (e : Event) : (s.emit e).rdFailCode = s.rdFailCode := rfl
@[simp] theorem State.emit_recReg (e : Event) : (s.emit e).recReg = s.recReg := rfl
@[simp] theorem State.emit_dispFrame (e : Event) : (s.emit e).dispFrame = s.dispFrame := rfl
@[simp] theorem State.emit_dispList (e : Event) : (s.emit e).dispList = s.dispList := rfl
@[simp] theorem State.emit_dispIdx (e : Event) : (s.emit e).dispIdx = s.dispIdx := rfl
@[simp] theorem State.emit_buf0 (e : Event) : (s.emit e).buf0 = s.buf0 := rfl
@[simp] theorem State.emit_buf1 (e : Event) : (s.emit e).buf1 = s.buf1 := rfl
@[simp] theorem State.emit_cnt0 (e : Event) : (s.emit e).cnt0 = s.cnt0 := rfl
@[simp] theorem State.emit_cnt1 (e : Event) : (s.emit e).cnt1 = s.cnt1 := rfl
@[simp] theorem State.emit_wsel (e : Event) : (s.emit e).wsel = s.wsel := rfl
@[simp] theorem State.emit_widx (e : Event) : (s.emit e).widx = s.widx := rfl
@[simp] theorem State.emit_need (e : Event) : (s.emit e).need = s.need := rfl
@[simp] theorem State.emit_lock (e : Event) : (s.emit e).lock = s.lock := rfl
@[simp] theorem State.emit_fill (e : Event) : (s.emit e).fill = s.fill := rfl
@[simp] theorem State.emit_txState (e : Event) : (s.emit e).txState = s.txState := rfl
@[simp] theorem State.emit_txWaitUntil (e : Event) : (s.emit e).txWaitUntil = s.txWaitUntil := rfl
@[simp] theorem State.emit_txOut (e : Event) : (s.emit e).txOut = s.txOut := rfl
@[simp] theorem State.emit_txFailValid (e : Event) : (s.emit e).txFailValid = s.txFailValid := rfl
@[simp] theorem State.emit_txFailCode (e : Event) : (s.emit e).txFailCode = s.txFailCode := rfl
@[simp] theorem State.emit_underrunLast (e : Event) : (s.emit e).underrunLast = s.underrunLast := rfl
@[simp] theorem State.emit_player (e : Event) : (s.emit e).player = s.player := rfl
@[simp] theorem State.emit_prState (e : Event) : (s.emit e).prState = s.prState := rfl
@[simp] theorem State.emit_pullPlayer (e : Event) : (s.emit e).pullPlayer = s.pullPlayer := rfl
@[simp] theorem State.emit_pullMax (e : Event) : (s.emit e).pullMax = s.pullMax := rfl
@[simp] theorem State.emit_ssState (e : Event) : (s.emit e).ssState = s.ssState := rfl
@[simp] theorem State.emit_misuse (e : Event) : (s.emit e).misuse = s.misuse := rfl
@[simp] theorem State.emit_cuBusy (e : Event) : (s.emit e).cuBusy = s.cuBusy := rfl
@[simp] theorem State.emit_faulted (e : Event) : (s.emit e).faulted = s.faulted := rfl
@[simp] theorem State.emit_trace (e : Event) : (s.emit e).trace = s.trace ++ [e] := rfl
@[simp] theorem State.emit_now (e : Event) : (s.emit e).now = s.now := rfl
@[simp] theorem State.emit_turns (e : Event) : (s.emit e).turns = s.turns := rfl
@[simp] theorem State.emit_envRead (e : Event) : (s.emit e).envRead = s.envRead := rfl
@[simp] theorem State.emit_envWrite (e : Event) : (s.emit e).envWrite = s.envWrite := rfl
@[simp] theorem State.emit_envPull (e : Event) : (s.emit e).envPull = s.envPull := rfl
@[simp] theorem State.emit_envAck (e : Event) : (s.emit e).envAck = s.envAck := rfl
@[simp] theorem State.emit_envDevice (e : Event) : (s.emit e).envDevice = s.envDevice := rfl
@[simp] theorem State.emit_envOpenDev (e : Event) : (s.emit e).envOpenDev = s.envOpenDev := rfl
@[simp] theorem State.emit_clockBack (e : Event) : (s.emit e).clockBack = s.clockBack := rfl
@[simp] theorem State.emit_codecWire (e : Event) : (s.emit e).codecWire = s.codecWire := rfl
@[simp] theorem State.emit_codecFrame (e : Event) : (s.emit e).codecFrame = s.codecFrame := rfl

/-! `gotoRd` -/

@[simp] theorem State.gotoRd_params (c : BitVec 3) : (s.gotoRd c).params = s.params := rfl
@[simp] theorem State.gotoRd_syncState (c : BitVec 3) : (s.gotoRd c).syncState = s.syncState := rfl
@[simp] theorem State.gotoRd_syncWork (c : BitVec 3) : (s.gotoRd c).syncWork = s.syncWork := rfl
@[simp] theorem State.gotoRd_rdState (c : BitVec 3) : (s.gotoRd c).rdState = c := rfl
@[simp] theorem State.gotoRd_rdBuf (c : BitVec 3) : (s.gotoRd c).rdBuf = s.rdBuf := rfl
@[simp] theorem State.gotoRd_rdLen (c : BitVec 3) : (s.gotoRd c).rdLen = s.rdLen := rfl
@[simp] theorem State.gotoRd_rdPos (c : BitVec 3) : (s.gotoRd c).rdPos = s.rdPos := rfl
@[simp] theorem State.gotoRd_rdSleepUntil (c : BitVec 3) : (s.gotoRd c).rdSleepUntil = s.rdSleepUntil := rfl
@[simp] theorem State.gotoRd_rdFailValid (c : BitVec 3) : (s.gotoRd c).rdFailValid = s.rdFailValid := rfl
@[simp] theorem State.gotoRd_rdFailCode (c : BitVec 3) : (s.gotoRd c).rdFailCode = s.rdFailCode := rfl
@[simp] theorem State.gotoRd_recReg (c : BitVec 3) : (s.gotoRd c).recReg = s.recReg := rfl
@[simp] theorem State.gotoRd_dispFrame (c : BitVec 3) : (s.gotoRd c).dispFrame = s.dispFrame := rfl
@[simp] theorem State.gotoRd_dispList (c : BitVec 3) : (s.gotoRd c).dispList = s.dispList := rfl
@[simp] theorem State.gotoRd_dispIdx (c : BitVec 3) : (s.gotoRd c).dispIdx = s.dispIdx := rfl
@[simp] theorem State.gotoRd_buf0 (c : BitVec 3) : (s.gotoRd c).buf0 = s.buf0 := rfl
@[simp] theorem State.gotoRd_buf1 (c : BitVec 3) : (s.gotoRd c).buf1 = s.buf1 := rfl
@[simp] theorem State.gotoRd_cnt0 (c : BitVec 3) : (s.gotoRd c).cnt0 = s.cnt0 := rfl
@[simp] theorem State.gotoRd_cnt1 (c : BitVec 3) : (s.gotoRd c).cnt1 = s.cnt1 := rfl
@[simp] theorem State.gotoRd_wsel (c : BitVec 3) : (s.gotoRd c).wsel = s.wsel := rfl
@[simp] theorem State.gotoRd_widx (c : BitVec 3) : (s.gotoRd c).widx = s.widx := rfl
@[simp] theorem State.gotoRd_need (c : BitVec 3) : (s.gotoRd c).need = s.need := rfl
@[simp] theorem State.gotoRd_lock (c : BitVec 3) : (s.gotoRd c).lock = s.lock := rfl
@[simp] theorem State.gotoRd_fill (c : BitVec 3) : (s.gotoRd c).fill = s.fill := rfl
@[simp] theorem State.gotoRd_txState (c : BitVec 3) : (s.gotoRd c).txState = s.txState := rfl
@[simp] theorem State.gotoRd_txWaitUntil (c : BitVec 3) : (s.gotoRd c).txWaitUntil = s.txWaitUntil := rfl
@[simp] theorem State.gotoRd_txOut (c : BitVec 3) : (s.gotoRd c).txOut = s.txOut := rfl
@[simp] theorem State.gotoRd_txFailValid (c : BitVec 3) : (s.gotoRd c).txFailValid = s.txFailValid := rfl
@[simp] theorem State.gotoRd_txFailCode (c : BitVec 3) : (s.gotoRd c).txFailCode = s.txFailCode := rfl
@[simp] theorem State.gotoRd_underrunLast (c : BitVec 3) : (s.gotoRd c).underrunLast = s.underrunLast := rfl
@[simp] theorem State.gotoRd_player (c : BitVec 3) : (s.gotoRd c).player = s.player := rfl
@[simp] theorem State.gotoRd_prState (c : BitVec 3) : (s.gotoRd c).prState = s.prState := rfl
@[simp] theorem State.gotoRd_pullPlayer (c : BitVec 3) : (s.gotoRd c).pullPlayer = s.pullPlayer := rfl
@[simp] theorem State.gotoRd_pullMax (c : BitVec 3) : (s.gotoRd c).pullMax = s.pullMax := rfl
@[simp] theorem State.gotoRd_ssState (c : BitVec 3) : (s.gotoRd c).ssState = s.ssState := rfl
@[simp] theorem State.gotoRd_misuse (c : BitVec 3) : (s.gotoRd c).misuse = s.misuse := rfl
@[simp] theorem State.gotoRd_cuBusy (c : BitVec 3) : (s.gotoRd c).cuBusy = s.cuBusy := rfl
@[simp] theorem State.gotoRd_faulted (c : BitVec 3) : (s.gotoRd c).faulted = s.faulted := rfl
@[simp] theorem State.gotoRd_trace (c : BitVec 3) : (s.gotoRd c).trace = s.trace := rfl
@[simp] theorem State.gotoRd_now (c : BitVec 3) : (s.gotoRd c).now = s.now := rfl
@[simp] theorem State.gotoRd_turns (c : BitVec 3) : (s.gotoRd c).turns = s.turns := rfl
@[simp] theorem State.gotoRd_envRead (c : BitVec 3) : (s.gotoRd c).envRead = s.envRead := rfl
@[simp] theorem State.gotoRd_envWrite (c : BitVec 3) : (s.gotoRd c).envWrite = s.envWrite := rfl
@[simp] theorem State.gotoRd_envPull (c : BitVec 3) : (s.gotoRd c).envPull = s.envPull := rfl
@[simp] theorem State.gotoRd_envAck (c : BitVec 3) : (s.gotoRd c).envAck = s.envAck := rfl
@[simp] theorem State.gotoRd_envDevice (c : BitVec 3) : (s.gotoRd c).envDevice = s.envDevice := rfl
@[simp] theorem State.gotoRd_envOpenDev (c : BitVec 3) : (s.gotoRd c).envOpenDev = s.envOpenDev := rfl
@[simp] theorem State.gotoRd_clockBack (c : BitVec 3) : (s.gotoRd c).clockBack = s.clockBack := rfl
@[simp] theorem State.gotoRd_codecWire (c : BitVec 3) : (s.gotoRd c).codecWire = s.codecWire := rfl
@[simp] theorem State.gotoRd_codecFrame (c : BitVec 3) : (s.gotoRd c).codecFrame = s.codecFrame := rfl

/-! `gotoTx` -/

@[simp] theorem State.gotoTx_params (c : BitVec 4) : (s.gotoTx c).params = s.params := rfl
@[simp] theorem State.gotoTx_syncState (c : BitVec 4) : (s.gotoTx c).syncState = s.syncState := rfl
@[simp] theorem State.gotoTx_syncWork (c : BitVec 4) : (s.gotoTx c).syncWork = s.syncWork := rfl
@[simp] theorem State.gotoTx_rdState (c : BitVec 4) : (s.gotoTx c).rdState = s.rdState := rfl
@[simp] theorem State.gotoTx_rdBuf (c : BitVec 4) : (s.gotoTx c).rdBuf = s.rdBuf := rfl
@[simp] theorem State.gotoTx_rdLen (c : BitVec 4) : (s.gotoTx c).rdLen = s.rdLen := rfl
@[simp] theorem State.gotoTx_rdPos (c : BitVec 4) : (s.gotoTx c).rdPos = s.rdPos := rfl
@[simp] theorem State.gotoTx_rdSleepUntil (c : BitVec 4) : (s.gotoTx c).rdSleepUntil = s.rdSleepUntil := rfl
@[simp] theorem State.gotoTx_rdFailValid (c : BitVec 4) : (s.gotoTx c).rdFailValid = s.rdFailValid := rfl
@[simp] theorem State.gotoTx_rdFailCode (c : BitVec 4) : (s.gotoTx c).rdFailCode = s.rdFailCode := rfl
@[simp] theorem State.gotoTx_recReg (c : BitVec 4) : (s.gotoTx c).recReg = s.recReg := rfl
@[simp] theorem State.gotoTx_dispFrame (c : BitVec 4) : (s.gotoTx c).dispFrame = s.dispFrame := rfl
@[simp] theorem State.gotoTx_dispList (c : BitVec 4) : (s.gotoTx c).dispList = s.dispList := rfl
@[simp] theorem State.gotoTx_dispIdx (c : BitVec 4) : (s.gotoTx c).dispIdx = s.dispIdx := rfl
@[simp] theorem State.gotoTx_buf0 (c : BitVec 4) : (s.gotoTx c).buf0 = s.buf0 := rfl
@[simp] theorem State.gotoTx_buf1 (c : BitVec 4) : (s.gotoTx c).buf1 = s.buf1 := rfl
@[simp] theorem State.gotoTx_cnt0 (c : BitVec 4) : (s.gotoTx c).cnt0 = s.cnt0 := rfl
@[simp] theorem State.gotoTx_cnt1 (c : BitVec 4) : (s.gotoTx c).cnt1 = s.cnt1 := rfl
@[simp] theorem State.gotoTx_wsel (c : BitVec 4) : (s.gotoTx c).wsel = s.wsel := rfl
@[simp] theorem State.gotoTx_widx (c : BitVec 4) : (s.gotoTx c).widx = s.widx := rfl
@[simp] theorem State.gotoTx_need (c : BitVec 4) : (s.gotoTx c).need = s.need := rfl
@[simp] theorem State.gotoTx_lock (c : BitVec 4) : (s.gotoTx c).lock = s.lock := rfl
@[simp] theorem State.gotoTx_fill (c : BitVec 4) : (s.gotoTx c).fill = s.fill := rfl
@[simp] theorem State.gotoTx_txState (c : BitVec 4) : (s.gotoTx c).txState = c := rfl
@[simp] theorem State.gotoTx_txWaitUntil (c : BitVec 4) : (s.gotoTx c).txWaitUntil = s.txWaitUntil := rfl
@[simp] theorem State.gotoTx_txOut (c : BitVec 4) : (s.gotoTx c).txOut = s.txOut := rfl
@[simp] theorem State.gotoTx_txFailValid (c : BitVec 4) : (s.gotoTx c).txFailValid = s.txFailValid := rfl
@[simp] theorem State.gotoTx_txFailCode (c : BitVec 4) : (s.gotoTx c).txFailCode = s.txFailCode := rfl
@[simp] theorem State.gotoTx_underrunLast (c : BitVec 4) : (s.gotoTx c).underrunLast = s.underrunLast := rfl
@[simp] theorem State.gotoTx_player (c : BitVec 4) : (s.gotoTx c).player = s.player := rfl
@[simp] theorem State.gotoTx_prState (c : BitVec 4) : (s.gotoTx c).prState = s.prState := rfl
@[simp] theorem State.gotoTx_pullPlayer (c : BitVec 4) : (s.gotoTx c).pullPlayer = s.pullPlayer := rfl
@[simp] theorem State.gotoTx_pullMax (c : BitVec 4) : (s.gotoTx c).pullMax = s.pullMax := rfl
@[simp] theorem State.gotoTx_ssState (c : BitVec 4) : (s.gotoTx c).ssState = s.ssState := rfl
@[simp] theorem State.gotoTx_misuse (c : BitVec 4) : (s.gotoTx c).misuse = s.misuse := rfl
@[simp] theorem State.gotoTx_cuBusy (c : BitVec 4) : (s.gotoTx c).cuBusy = s.cuBusy := rfl
@[simp] theorem State.gotoTx_faulted (c : BitVec 4) : (s.gotoTx c).faulted = s.faulted := rfl
@[simp] theorem State.gotoTx_trace (c : BitVec 4) : (s.gotoTx c).trace = s.trace := rfl
@[simp] theorem State.gotoTx_now (c : BitVec 4) : (s.gotoTx c).now = s.now := rfl
@[simp] theorem State.gotoTx_turns (c : BitVec 4) : (s.gotoTx c).turns = s.turns := rfl
@[simp] theorem State.gotoTx_envRead (c : BitVec 4) : (s.gotoTx c).envRead = s.envRead := rfl
@[simp] theorem State.gotoTx_envWrite (c : BitVec 4) : (s.gotoTx c).envWrite = s.envWrite := rfl
@[simp] theorem State.gotoTx_envPull (c : BitVec 4) : (s.gotoTx c).envPull = s.envPull := rfl
@[simp] theorem State.gotoTx_envAck (c : BitVec 4) : (s.gotoTx c).envAck = s.envAck := rfl
@[simp] theorem State.gotoTx_envDevice (c : BitVec 4) : (s.gotoTx c).envDevice = s.envDevice := rfl
@[simp] theorem State.gotoTx_envOpenDev (c : BitVec 4) : (s.gotoTx c).envOpenDev = s.envOpenDev := rfl
@[simp] theorem State.gotoTx_clockBack (c : BitVec 4) : (s.gotoTx c).clockBack = s.clockBack := rfl
@[simp] theorem State.gotoTx_codecWire (c : BitVec 4) : (s.gotoTx c).codecWire = s.codecWire := rfl
@[simp] theorem State.gotoTx_codecFrame (c : BitVec 4) : (s.gotoTx c).codecFrame = s.codecFrame := rfl

/-! `gotoPr` -/

@[simp] theorem State.gotoPr_params (c : BitVec 2) : (s.gotoPr c).params = s.params := rfl
@[simp] theorem State.gotoPr_syncState (c : BitVec 2) : (s.gotoPr c).syncState = s.syncState := rfl
@[simp] theorem State.gotoPr_syncWork (c : BitVec 2) : (s.gotoPr c).syncWork = s.syncWork := rfl
@[simp] theorem State.gotoPr_rdState (c : BitVec 2) : (s.gotoPr c).rdState = s.rdState := rfl
@[simp] theorem State.gotoPr_rdBuf (c : BitVec 2) : (s.gotoPr c).rdBuf = s.rdBuf := rfl
@[simp] theorem State.gotoPr_rdLen (c : BitVec 2) : (s.gotoPr c).rdLen = s.rdLen := rfl
@[simp] theorem State.gotoPr_rdPos (c : BitVec 2) : (s.gotoPr c).rdPos = s.rdPos := rfl
@[simp] theorem State.gotoPr_rdSleepUntil (c : BitVec 2) : (s.gotoPr c).rdSleepUntil = s.rdSleepUntil := rfl
@[simp] theorem State.gotoPr_rdFailValid (c : BitVec 2) : (s.gotoPr c).rdFailValid = s.rdFailValid := rfl
@[simp] theorem State.gotoPr_rdFailCode (c : BitVec 2) : (s.gotoPr c).rdFailCode = s.rdFailCode := rfl
@[simp] theorem State.gotoPr_recReg (c : BitVec 2) : (s.gotoPr c).recReg = s.recReg := rfl
@[simp] theorem State.gotoPr_dispFrame (c : BitVec 2) : (s.gotoPr c).dispFrame = s.dispFrame := rfl
@[simp] theorem State.gotoPr_dispList (c : BitVec 2) : (s.gotoPr c).dispList = s.dispList := rfl
@[simp] theorem State.gotoPr_dispIdx (c : BitVec 2) : (s.gotoPr c).dispIdx = s.dispIdx := rfl
@[simp] theorem State.gotoPr_buf0 (c : BitVec 2) : (s.gotoPr c).buf0 = s.buf0 := rfl
@[simp] theorem State.gotoPr_buf1 (c : BitVec 2) : (s.gotoPr c).buf1 = s.buf1 := rfl
@[simp] theorem State.gotoPr_cnt0 (c : BitVec 2) : (s.gotoPr c).cnt0 = s.cnt0 := rfl
@[simp] theorem State.gotoPr_cnt1 (c : BitVec 2) : (s.gotoPr c).cnt1 = s.cnt1 := rfl
@[simp] theorem State.gotoPr_wsel (c : BitVec 2) : (s.gotoPr c).wsel = s.wsel := rfl
@[simp] theorem State.gotoPr_widx (c : BitVec 2) : (s.gotoPr c).widx = s.widx := rfl
@[simp] theorem State.gotoPr_need (c : BitVec 2) : (s.gotoPr c).need = s.need := rfl
@[simp] theorem State.gotoPr_lock (c : BitVec 2) : (s.gotoPr c).lock = s.lock := rfl
@[simp] theorem State.gotoPr_fill (c : BitVec 2) : (s.gotoPr c).fill = s.fill := rfl
@[simp] theorem State.gotoPr_txState (c : BitVec 2) : (s.gotoPr c).txState = s.txState := rfl
@[simp] theorem State.gotoPr_txWaitUntil (c : BitVec 2) : (s.gotoPr c).txWaitUntil = s.txWaitUntil := rfl
@[simp] theorem State.gotoPr_txOut (c : BitVec 2) : (s.gotoPr c).txOut = s.txOut := rfl
@[simp] theorem State.gotoPr_txFailValid (c : BitVec 2) : (s.gotoPr c).txFailValid = s.txFailValid := rfl
@[simp] theorem State.gotoPr_txFailCode (c : BitVec 2) : (s.gotoPr c).txFailCode = s.txFailCode := rfl
@[simp] theorem State.gotoPr_underrunLast (c : BitVec 2) : (s.gotoPr c).underrunLast = s.underrunLast := rfl
@[simp] theorem State.gotoPr_player (c : BitVec 2) : (s.gotoPr c).player = s.player := rfl
@[simp] theorem State.gotoPr_prState (c : BitVec 2) : (s.gotoPr c).prState = c := rfl
@[simp] theorem State.gotoPr_pullPlayer (c : BitVec 2) : (s.gotoPr c).pullPlayer = s.pullPlayer := rfl
@[simp] theorem State.gotoPr_pullMax (c : BitVec 2) : (s.gotoPr c).pullMax = s.pullMax := rfl
@[simp] theorem State.gotoPr_ssState (c : BitVec 2) : (s.gotoPr c).ssState = s.ssState := rfl
@[simp] theorem State.gotoPr_misuse (c : BitVec 2) : (s.gotoPr c).misuse = s.misuse := rfl
@[simp] theorem State.gotoPr_cuBusy (c : BitVec 2) : (s.gotoPr c).cuBusy = s.cuBusy := rfl
@[simp] theorem State.gotoPr_faulted (c : BitVec 2) : (s.gotoPr c).faulted = s.faulted := rfl
@[simp] theorem State.gotoPr_trace (c : BitVec 2) : (s.gotoPr c).trace = s.trace := rfl
@[simp] theorem State.gotoPr_now (c : BitVec 2) : (s.gotoPr c).now = s.now := rfl
@[simp] theorem State.gotoPr_turns (c : BitVec 2) : (s.gotoPr c).turns = s.turns := rfl
@[simp] theorem State.gotoPr_envRead (c : BitVec 2) : (s.gotoPr c).envRead = s.envRead := rfl
@[simp] theorem State.gotoPr_envWrite (c : BitVec 2) : (s.gotoPr c).envWrite = s.envWrite := rfl
@[simp] theorem State.gotoPr_envPull (c : BitVec 2) : (s.gotoPr c).envPull = s.envPull := rfl
@[simp] theorem State.gotoPr_envAck (c : BitVec 2) : (s.gotoPr c).envAck = s.envAck := rfl
@[simp] theorem State.gotoPr_envDevice (c : BitVec 2) : (s.gotoPr c).envDevice = s.envDevice := rfl
@[simp] theorem State.gotoPr_envOpenDev (c : BitVec 2) : (s.gotoPr c).envOpenDev = s.envOpenDev := rfl
@[simp] theorem State.gotoPr_clockBack (c : BitVec 2) : (s.gotoPr c).clockBack = s.clockBack := rfl
@[simp] theorem State.gotoPr_codecWire (c : BitVec 2) : (s.gotoPr c).codecWire = s.codecWire := rfl
@[simp] theorem State.gotoPr_codecFrame (c : BitVec 2) : (s.gotoPr c).codecFrame = s.codecFrame := rfl

/-! `gotoSs` -/

@[simp] theorem State.gotoSs_params (c : BitVec 3) : (s.gotoSs c).params = s.params := rfl
@[simp] theorem State.gotoSs_syncState (c : BitVec 3) : (s.gotoSs c).syncState = s.syncState := rfl
@[simp] theorem State.gotoSs_syncWork (c : BitVec 3) : (s.gotoSs c).syncWork = s.syncWork := rfl
@[simp] theorem State.gotoSs_rdState (c : BitVec 3) : (s.gotoSs c).rdState = s.rdState := rfl
@[simp] theorem State.gotoSs_rdBuf (c : BitVec 3) : (s.gotoSs c).rdBuf = s.rdBuf := rfl
@[simp] theorem State.gotoSs_rdLen (c : BitVec 3) : (s.gotoSs c).rdLen = s.rdLen := rfl
@[simp] theorem State.gotoSs_rdPos (c : BitVec 3) : (s.gotoSs c).rdPos = s.rdPos := rfl
@[simp] theorem State.gotoSs_rdSleepUntil (c : BitVec 3) : (s.gotoSs c).rdSleepUntil = s.rdSleepUntil := rfl
@[simp] theorem State.gotoSs_rdFailValid (c : BitVec 3) : (s.gotoSs c).rdFailValid = s.rdFailValid := rfl
@[simp] theorem State.gotoSs_rdFailCode (c : BitVec 3) : (s.gotoSs c).rdFailCode = s.rdFailCode := rfl
@[simp] theorem State.gotoSs_recReg (c : BitVec 3) : (s.gotoSs c).recReg = s.recReg := rfl
@[simp] theorem State.gotoSs_dispFrame (c : BitVec 3) : (s.gotoSs c).dispFrame = s.dispFrame := rfl
@[simp] theorem State.gotoSs_dispList (c : BitVec 3) : (s.gotoSs c).dispList = s.dispList := rfl
@[simp] theorem State.gotoSs_dispIdx (c : BitVec 3) : (s.gotoSs c).dispIdx = s.dispIdx := rfl
@[simp] theorem State.gotoSs_buf0 (c : BitVec 3) : (s.gotoSs c).buf0 = s.buf0 := rfl
@[simp] theorem State.gotoSs_buf1 (c : BitVec 3) : (s.gotoSs c).buf1 = s.buf1 := rfl
@[simp] theorem State.gotoSs_cnt0 (c : BitVec 3) : (s.gotoSs c).cnt0 = s.cnt0 := rfl
@[simp] theorem State.gotoSs_cnt1 (c : BitVec 3) : (s.gotoSs c).cnt1 = s.cnt1 := rfl
@[simp] theorem State.gotoSs_wsel (c : BitVec 3) : (s.gotoSs c).wsel = s.wsel := rfl
@[simp] theorem State.gotoSs_widx (c : BitVec 3) : (s.gotoSs c).widx = s.widx := rfl
@[simp] theorem State.gotoSs_need (c : BitVec 3) : (s.gotoSs c).need = s.need := rfl
@[simp] theorem State.gotoSs_lock (c : BitVec 3) : (s.gotoSs c).lock = s.lock := rfl
@[simp] theorem State.gotoSs_fill (c : BitVec 3) : (s.gotoSs c).fill = s.fill := rfl
@[simp] theorem State.gotoSs_txState (c : BitVec 3) : (s.gotoSs c).txState = s.txState := rfl
@[simp] theorem State.gotoSs_txWaitUntil (c : BitVec 3) : (s.gotoSs c).txWaitUntil = s.txWaitUntil := rfl
@[simp] theorem State.gotoSs_txOut (c : BitVec 3) : (s.gotoSs c).txOut = s.txOut := rfl
@[simp] theorem State.gotoSs_txFailValid (c : BitVec 3) : (s.gotoSs c).txFailValid = s.txFailValid := rfl
@[simp] theorem State.gotoSs_txFailCode (c : BitVec 3) : (s.gotoSs c).txFailCode = s.txFailCode := rfl
@[simp] theorem State.gotoSs_underrunLast (c : BitVec 3) : (s.gotoSs c).underrunLast = s.underrunLast := rfl
@[simp] theorem State.gotoSs_player (c : BitVec 3) : (s.gotoSs c).player = s.player := rfl
@[simp] theorem State.gotoSs_prState (c : BitVec 3) : (s.gotoSs c).prState = s.prState := rfl
@[simp] theorem State.gotoSs_pullPlayer (c : BitVec 3) : (s.gotoSs c).pullPlayer = s.pullPlayer := rfl
@[simp] theorem State.gotoSs_pullMax (c : BitVec 3) : (s.gotoSs c).pullMax = s.pullMax := rfl
@[simp] theorem State.gotoSs_ssState (c : BitVec 3) : (s.gotoSs c).ssState = c := rfl
@[simp] theorem State.gotoSs_misuse (c : BitVec 3) : (s.gotoSs c).misuse = s.misuse := rfl
@[simp] theorem State.gotoSs_cuBusy (c : BitVec 3) : (s.gotoSs c).cuBusy = s.cuBusy := rfl
@[simp] theorem State.gotoSs_faulted (c : BitVec 3) : (s.gotoSs c).faulted = s.faulted := rfl
@[simp] theorem State.gotoSs_trace (c : BitVec 3) : (s.gotoSs c).trace = s.trace := rfl
@[simp] theorem State.gotoSs_now (c : BitVec 3) : (s.gotoSs c).now = s.now := rfl
@[simp] theorem State.gotoSs_turns (c : BitVec 3) : (s.gotoSs c).turns = s.turns := rfl
@[simp] theorem State.gotoSs_envRead (c : BitVec 3) : (s.gotoSs c).envRead = s.envRead := rfl
@[simp] theorem State.gotoSs_envWrite (c : BitVec 3) : (s.gotoSs c).envWrite = s.envWrite := rfl
@[simp] theorem State.gotoSs_envPull (c : BitVec 3) : (s.gotoSs c).envPull = s.envPull := rfl
@[simp] theorem State.gotoSs_envAck (c : BitVec 3) : (s.gotoSs c).envAck = s.envAck := rfl
@[simp] theorem State.gotoSs_envDevice (c : BitVec 3) : (s.gotoSs c).envDevice = s.envDevice := rfl
@[simp] theorem State.gotoSs_envOpenDev (c : BitVec 3) : (s.gotoSs c).envOpenDev = s.envOpenDev := rfl
@[simp] theorem State.gotoSs_clockBack (c : BitVec 3) : (s.gotoSs c).clockBack = s.clockBack := rfl
@[simp] theorem State.gotoSs_codecWire (c : BitVec 3) : (s.gotoSs c).codecWire = s.codecWire := rfl
@[simp] theorem State.gotoSs_codecFrame (c : BitVec 3) : (s.gotoSs c).codecFrame = s.codecFrame := rfl

/-! `respond` -/

@[simp] theorem State.respond_params (c : Byte) (v : BitVec 32) : (s.respond c v).params = s.params := rfl
@[simp] theorem State.respond_syncState (c : Byte) (v : BitVec 32) : (s.respond c v).syncState = s.syncState := rfl
@[simp] theorem State.respond_syncWork (c : Byte) (v : BitVec 32) : (s.respond c v).syncWork = s.syncWork := rfl
@[simp] theorem State.respond_rdState (c : Byte) (v : BitVec 32) : (s.respond c v).rdState = s.rdState := rfl
@[simp] theorem State.respond_rdBuf (c : Byte) (v : BitVec 32) : (s.respond c v).rdBuf = s.rdBuf := rfl
@[simp] theorem State.respond_rdLen (c : Byte) (v : BitVec 32) : (s.respond c v).rdLen = s.rdLen := rfl
@[simp] theorem State.respond_rdPos (c : Byte) (v : BitVec 32) : (s.respond c v).rdPos = s.rdPos := rfl
@[simp] theorem State.respond_rdSleepUntil (c : Byte) (v : BitVec 32) : (s.respond c v).rdSleepUntil = s.rdSleepUntil := rfl
@[simp] theorem State.respond_rdFailValid (c : Byte) (v : BitVec 32) : (s.respond c v).rdFailValid = s.rdFailValid := rfl
@[simp] theorem State.respond_rdFailCode (c : Byte) (v : BitVec 32) : (s.respond c v).rdFailCode = s.rdFailCode := rfl
@[simp] theorem State.respond_recReg (c : Byte) (v : BitVec 32) : (s.respond c v).recReg = s.recReg := rfl
@[simp] theorem State.respond_dispFrame (c : Byte) (v : BitVec 32) : (s.respond c v).dispFrame = s.dispFrame := rfl
@[simp] theorem State.respond_dispList (c : Byte) (v : BitVec 32) : (s.respond c v).dispList = s.dispList := rfl
@[simp] theorem State.respond_dispIdx (c : Byte) (v : BitVec 32) : (s.respond c v).dispIdx = s.dispIdx := rfl
@[simp] theorem State.respond_buf0 (c : Byte) (v : BitVec 32) : (s.respond c v).buf0 = s.buf0 := rfl
@[simp] theorem State.respond_buf1 (c : Byte) (v : BitVec 32) : (s.respond c v).buf1 = s.buf1 := rfl
@[simp] theorem State.respond_cnt0 (c : Byte) (v : BitVec 32) : (s.respond c v).cnt0 = s.cnt0 := rfl
@[simp] theorem State.respond_cnt1 (c : Byte) (v : BitVec 32) : (s.respond c v).cnt1 = s.cnt1 := rfl
@[simp] theorem State.respond_wsel (c : Byte) (v : BitVec 32) : (s.respond c v).wsel = s.wsel := rfl
@[simp] theorem State.respond_widx (c : Byte) (v : BitVec 32) : (s.respond c v).widx = s.widx := rfl
@[simp] theorem State.respond_need (c : Byte) (v : BitVec 32) : (s.respond c v).need = s.need := rfl
@[simp] theorem State.respond_lock (c : Byte) (v : BitVec 32) : (s.respond c v).lock = s.lock := rfl
@[simp] theorem State.respond_fill (c : Byte) (v : BitVec 32) : (s.respond c v).fill = s.fill := rfl
@[simp] theorem State.respond_txState (c : Byte) (v : BitVec 32) : (s.respond c v).txState = s.txState := rfl
@[simp] theorem State.respond_txWaitUntil (c : Byte) (v : BitVec 32) : (s.respond c v).txWaitUntil = s.txWaitUntil := rfl
@[simp] theorem State.respond_txOut (c : Byte) (v : BitVec 32) : (s.respond c v).txOut = s.txOut := rfl
@[simp] theorem State.respond_txFailValid (c : Byte) (v : BitVec 32) : (s.respond c v).txFailValid = s.txFailValid := rfl
@[simp] theorem State.respond_txFailCode (c : Byte) (v : BitVec 32) : (s.respond c v).txFailCode = s.txFailCode := rfl
@[simp] theorem State.respond_underrunLast (c : Byte) (v : BitVec 32) : (s.respond c v).underrunLast = s.underrunLast := rfl
@[simp] theorem State.respond_player (c : Byte) (v : BitVec 32) : (s.respond c v).player = s.player := rfl
@[simp] theorem State.respond_prState (c : Byte) (v : BitVec 32) : (s.respond c v).prState = s.prState := rfl
@[simp] theorem State.respond_pullPlayer (c : Byte) (v : BitVec 32) : (s.respond c v).pullPlayer = s.pullPlayer := rfl
@[simp] theorem State.respond_pullMax (c : Byte) (v : BitVec 32) : (s.respond c v).pullMax = s.pullMax := rfl
@[simp] theorem State.respond_ssState (c : Byte) (v : BitVec 32) : (s.respond c v).ssState = s.ssState := rfl
@[simp] theorem State.respond_misuse (c : Byte) (v : BitVec 32) : (s.respond c v).misuse = s.misuse := rfl
@[simp] theorem State.respond_cuBusy (c : Byte) (v : BitVec 32) : (s.respond c v).cuBusy = s.cuBusy := rfl
@[simp] theorem State.respond_faulted (c : Byte) (v : BitVec 32) : (s.respond c v).faulted = s.faulted := rfl
@[simp] theorem State.respond_trace (c : Byte) (v : BitVec 32) : (s.respond c v).trace = s.trace ++ [.resp c v] := rfl
@[simp] theorem State.respond_now (c : Byte) (v : BitVec 32) : (s.respond c v).now = s.now := rfl
@[simp] theorem State.respond_turns (c : Byte) (v : BitVec 32) : (s.respond c v).turns = s.turns := rfl
@[simp] theorem State.respond_envRead (c : Byte) (v : BitVec 32) : (s.respond c v).envRead = s.envRead := rfl
@[simp] theorem State.respond_envWrite (c : Byte) (v : BitVec 32) : (s.respond c v).envWrite = s.envWrite := rfl
@[simp] theorem State.respond_envPull (c : Byte) (v : BitVec 32) : (s.respond c v).envPull = s.envPull := rfl
@[simp] theorem State.respond_envAck (c : Byte) (v : BitVec 32) : (s.respond c v).envAck = s.envAck := rfl
@[simp] theorem State.respond_envDevice (c : Byte) (v : BitVec 32) : (s.respond c v).envDevice = s.envDevice := rfl
@[simp] theorem State.respond_envOpenDev (c : Byte) (v : BitVec 32) : (s.respond c v).envOpenDev = s.envOpenDev := rfl
@[simp] theorem State.respond_clockBack (c : Byte) (v : BitVec 32) : (s.respond c v).clockBack = s.clockBack := rfl
@[simp] theorem State.respond_codecWire (c : Byte) (v : BitVec 32) : (s.respond c v).codecWire = s.codecWire := rfl
@[simp] theorem State.respond_codecFrame (c : Byte) (v : BitVec 32) : (s.respond c v).codecFrame = s.codecFrame := rfl

/-! `modelFault` -/

@[simp] theorem State.modelFault_params : (s.modelFault).params = s.params := rfl
@[simp] theorem State.modelFault_syncState : (s.modelFault).syncState = s.syncState := rfl
@[simp] theorem State.modelFault_syncWork : (s.modelFault).syncWork = s.syncWork := rfl
@[simp] theorem State.modelFault_rdState : (s.modelFault).rdState = s.rdState := rfl
@[simp] theorem State.modelFault_rdBuf : (s.modelFault).rdBuf = s.rdBuf := rfl
@[simp] theorem State.modelFault_rdLen : (s.modelFault).rdLen = s.rdLen := rfl
@[simp] theorem State.modelFault_rdPos : (s.modelFault).rdPos = s.rdPos := rfl
@[simp] theorem State.modelFault_rdSleepUntil : (s.modelFault).rdSleepUntil = s.rdSleepUntil := rfl
@[simp] theorem State.modelFault_rdFailValid : (s.modelFault).rdFailValid = s.rdFailValid := rfl
@[simp] theorem State.modelFault_rdFailCode : (s.modelFault).rdFailCode = s.rdFailCode := rfl
@[simp] theorem State.modelFault_recReg : (s.modelFault).recReg = s.recReg := rfl
@[simp] theorem State.modelFault_dispFrame : (s.modelFault).dispFrame = s.dispFrame := rfl
@[simp] theorem State.modelFault_dispList : (s.modelFault).dispList = s.dispList := rfl
@[simp] theorem State.modelFault_dispIdx : (s.modelFault).dispIdx = s.dispIdx := rfl
@[simp] theorem State.modelFault_buf0 : (s.modelFault).buf0 = s.buf0 := rfl
@[simp] theorem State.modelFault_buf1 : (s.modelFault).buf1 = s.buf1 := rfl
@[simp] theorem State.modelFault_cnt0 : (s.modelFault).cnt0 = s.cnt0 := rfl
@[simp] theorem State.modelFault_cnt1 : (s.modelFault).cnt1 = s.cnt1 := rfl
@[simp] theorem State.modelFault_wsel : (s.modelFault).wsel = s.wsel := rfl
@[simp] theorem State.modelFault_widx : (s.modelFault).widx = s.widx := rfl
@[simp] theorem State.modelFault_need : (s.modelFault).need = s.need := rfl
@[simp] theorem State.modelFault_lock : (s.modelFault).lock = s.lock := rfl
@[simp] theorem State.modelFault_fill : (s.modelFault).fill = s.fill := rfl
@[simp] theorem State.modelFault_txState : (s.modelFault).txState = s.txState := rfl
@[simp] theorem State.modelFault_txWaitUntil : (s.modelFault).txWaitUntil = s.txWaitUntil := rfl
@[simp] theorem State.modelFault_txOut : (s.modelFault).txOut = s.txOut := rfl
@[simp] theorem State.modelFault_txFailValid : (s.modelFault).txFailValid = s.txFailValid := rfl
@[simp] theorem State.modelFault_txFailCode : (s.modelFault).txFailCode = s.txFailCode := rfl
@[simp] theorem State.modelFault_underrunLast : (s.modelFault).underrunLast = s.underrunLast := rfl
@[simp] theorem State.modelFault_player : (s.modelFault).player = s.player := rfl
@[simp] theorem State.modelFault_prState : (s.modelFault).prState = s.prState := rfl
@[simp] theorem State.modelFault_pullPlayer : (s.modelFault).pullPlayer = s.pullPlayer := rfl
@[simp] theorem State.modelFault_pullMax : (s.modelFault).pullMax = s.pullMax := rfl
@[simp] theorem State.modelFault_ssState : (s.modelFault).ssState = s.ssState := rfl
@[simp] theorem State.modelFault_misuse : (s.modelFault).misuse = s.misuse := rfl
@[simp] theorem State.modelFault_cuBusy : (s.modelFault).cuBusy = s.cuBusy := rfl
@[simp] theorem State.modelFault_faulted : (s.modelFault).faulted = true := rfl
@[simp] theorem State.modelFault_trace : (s.modelFault).trace = s.trace := rfl
@[simp] theorem State.modelFault_now : (s.modelFault).now = s.now := rfl
@[simp] theorem State.modelFault_turns : (s.modelFault).turns = s.turns := rfl
@[simp] theorem State.modelFault_envRead : (s.modelFault).envRead = s.envRead := rfl
@[simp] theorem State.modelFault_envWrite : (s.modelFault).envWrite = s.envWrite := rfl
@[simp] theorem State.modelFault_envPull : (s.modelFault).envPull = s.envPull := rfl
@[simp] theorem State.modelFault_envAck : (s.modelFault).envAck = s.envAck := rfl
@[simp] theorem State.modelFault_envDevice : (s.modelFault).envDevice = s.envDevice := rfl
@[simp] theorem State.modelFault_envOpenDev : (s.modelFault).envOpenDev = s.envOpenDev := rfl
@[simp] theorem State.modelFault_clockBack : (s.modelFault).clockBack = s.clockBack := rfl
@[simp] theorem State.modelFault_codecWire : (s.modelFault).codecWire = s.codecWire := rfl
@[simp] theorem State.modelFault_codecFrame : (s.modelFault).codecFrame = s.codecFrame := rfl

/-! `answerMisuse` -/

@[simp] theorem State.answerMisuse_params : (s.answerMisuse).params = s.params := rfl
@[simp] theorem State.answerMisuse_syncState : (s.answerMisuse).syncState = s.syncState := rfl
@[simp] theorem State.answerMisuse_syncWork : (s.answerMisuse).syncWork = s.syncWork := rfl
@[simp] theorem State.answerMisuse_rdState : (s.answerMisuse).rdState = s.rdState := rfl
@[simp] theorem State.answerMisuse_rdBuf : (s.answerMisuse).rdBuf = s.rdBuf := rfl
@[simp] theorem State.answerMisuse_rdLen : (s.answerMisuse).rdLen = s.rdLen := rfl
@[simp] theorem State.answerMisuse_rdPos : (s.answerMisuse).rdPos = s.rdPos := rfl
@[simp] theorem State.answerMisuse_rdSleepUntil : (s.answerMisuse).rdSleepUntil = s.rdSleepUntil := rfl
@[simp] theorem State.answerMisuse_rdFailValid : (s.answerMisuse).rdFailValid = s.rdFailValid := rfl
@[simp] theorem State.answerMisuse_rdFailCode : (s.answerMisuse).rdFailCode = s.rdFailCode := rfl
@[simp] theorem State.answerMisuse_recReg : (s.answerMisuse).recReg = s.recReg := rfl
@[simp] theorem State.answerMisuse_dispFrame : (s.answerMisuse).dispFrame = s.dispFrame := rfl
@[simp] theorem State.answerMisuse_dispList : (s.answerMisuse).dispList = s.dispList := rfl
@[simp] theorem State.answerMisuse_dispIdx : (s.answerMisuse).dispIdx = s.dispIdx := rfl
@[simp] theorem State.answerMisuse_buf0 : (s.answerMisuse).buf0 = s.buf0 := rfl
@[simp] theorem State.answerMisuse_buf1 : (s.answerMisuse).buf1 = s.buf1 := rfl
@[simp] theorem State.answerMisuse_cnt0 : (s.answerMisuse).cnt0 = s.cnt0 := rfl
@[simp] theorem State.answerMisuse_cnt1 : (s.answerMisuse).cnt1 = s.cnt1 := rfl
@[simp] theorem State.answerMisuse_wsel : (s.answerMisuse).wsel = s.wsel := rfl
@[simp] theorem State.answerMisuse_widx : (s.answerMisuse).widx = s.widx := rfl
@[simp] theorem State.answerMisuse_need : (s.answerMisuse).need = s.need := rfl
@[simp] theorem State.answerMisuse_lock : (s.answerMisuse).lock = s.lock := rfl
@[simp] theorem State.answerMisuse_fill : (s.answerMisuse).fill = s.fill := rfl
@[simp] theorem State.answerMisuse_txState : (s.answerMisuse).txState = s.txState := rfl
@[simp] theorem State.answerMisuse_txWaitUntil : (s.answerMisuse).txWaitUntil = s.txWaitUntil := rfl
@[simp] theorem State.answerMisuse_txOut : (s.answerMisuse).txOut = s.txOut := rfl
@[simp] theorem State.answerMisuse_txFailValid : (s.answerMisuse).txFailValid = s.txFailValid := rfl
@[simp] theorem State.answerMisuse_txFailCode : (s.answerMisuse).txFailCode = s.txFailCode := rfl
@[simp] theorem State.answerMisuse_underrunLast : (s.answerMisuse).underrunLast = s.underrunLast := rfl
@[simp] theorem State.answerMisuse_player : (s.answerMisuse).player = s.player := rfl
@[simp] theorem State.answerMisuse_prState : (s.answerMisuse).prState = s.prState := rfl
@[simp] theorem State.answerMisuse_pullPlayer : (s.answerMisuse).pullPlayer = s.pullPlayer := rfl
@[simp] theorem State.answerMisuse_pullMax : (s.answerMisuse).pullMax = s.pullMax := rfl
@[simp] theorem State.answerMisuse_ssState : (s.answerMisuse).ssState = s.ssState := rfl
@[simp] theorem State.answerMisuse_misuse : (s.answerMisuse).misuse = true := rfl
@[simp] theorem State.answerMisuse_cuBusy : (s.answerMisuse).cuBusy = s.cuBusy := rfl
@[simp] theorem State.answerMisuse_faulted : (s.answerMisuse).faulted = s.faulted := rfl
@[simp] theorem State.answerMisuse_trace : (s.answerMisuse).trace = s.trace ++ [.resp RESP_MISUSE 0] := rfl
@[simp] theorem State.answerMisuse_now : (s.answerMisuse).now = s.now := rfl
@[simp] theorem State.answerMisuse_turns : (s.answerMisuse).turns = s.turns := rfl
@[simp] theorem State.answerMisuse_envRead : (s.answerMisuse).envRead = s.envRead := rfl
@[simp] theorem State.answerMisuse_envWrite : (s.answerMisuse).envWrite = s.envWrite := rfl
@[simp] theorem State.answerMisuse_envPull : (s.answerMisuse).envPull = s.envPull := rfl
@[simp] theorem State.answerMisuse_envAck : (s.answerMisuse).envAck = s.envAck := rfl
@[simp] theorem State.answerMisuse_envDevice : (s.answerMisuse).envDevice = s.envDevice := rfl
@[simp] theorem State.answerMisuse_envOpenDev : (s.answerMisuse).envOpenDev = s.envOpenDev := rfl
@[simp] theorem State.answerMisuse_clockBack : (s.answerMisuse).clockBack = s.clockBack := rfl
@[simp] theorem State.answerMisuse_codecWire : (s.answerMisuse).codecWire = s.codecWire := rfl
@[simp] theorem State.answerMisuse_codecFrame : (s.answerMisuse).codecFrame = s.codecFrame := rfl

/-! `answerIllegal` -/

@[simp] theorem State.answerIllegal_params : (s.answerIllegal).params = s.params := rfl
@[simp] theorem State.answerIllegal_syncState : (s.answerIllegal).syncState = s.syncState := rfl
@[simp] theorem State.answerIllegal_syncWork : (s.answerIllegal).syncWork = s.syncWork := rfl
@[simp] theorem State.answerIllegal_rdState : (s.answerIllegal).rdState = s.rdState := rfl
@[simp] theorem State.answerIllegal_rdBuf : (s.answerIllegal).rdBuf = s.rdBuf := rfl
@[simp] theorem State.answerIllegal_rdLen : (s.answerIllegal).rdLen = s.rdLen := rfl
@[simp] theorem State.answerIllegal_rdPos : (s.answerIllegal).rdPos = s.rdPos := rfl
@[simp] theorem State.answerIllegal_rdSleepUntil : (s.answerIllegal).rdSleepUntil = s.rdSleepUntil := rfl
@[simp] theorem State.answerIllegal_rdFailValid : (s.answerIllegal).rdFailValid = s.rdFailValid := rfl
@[simp] theorem State.answerIllegal_rdFailCode : (s.answerIllegal).rdFailCode = s.rdFailCode := rfl
@[simp] theorem State.answerIllegal_recReg : (s.answerIllegal).recReg = s.recReg := rfl
@[simp] theorem State.answerIllegal_dispFrame : (s.answerIllegal).dispFrame = s.dispFrame := rfl
@[simp] theorem State.answerIllegal_dispList : (s.answerIllegal).dispList = s.dispList := rfl
@[simp] theorem State.answerIllegal_dispIdx : (s.answerIllegal).dispIdx = s.dispIdx := rfl
@[simp] theorem State.answerIllegal_buf0 : (s.answerIllegal).buf0 = s.buf0 := rfl
@[simp] theorem State.answerIllegal_buf1 : (s.answerIllegal).buf1 = s.buf1 := rfl
@[simp] theorem State.answerIllegal_cnt0 : (s.answerIllegal).cnt0 = s.cnt0 := rfl
@[simp] theorem State.answerIllegal_cnt1 : (s.answerIllegal).cnt1 = s.cnt1 := rfl
@[simp] theorem State.answerIllegal_wsel : (s.answerIllegal).wsel = s.wsel := rfl
@[simp] theorem State.answerIllegal_widx : (s.answerIllegal).widx = s.widx := rfl
@[simp] theorem State.answerIllegal_need : (s.answerIllegal).need = s.need := rfl
@[simp] theorem State.answerIllegal_lock : (s.answerIllegal).lock = s.lock := rfl
@[simp] theorem State.answerIllegal_fill : (s.answerIllegal).fill = s.fill := rfl
@[simp] theorem State.answerIllegal_txState : (s.answerIllegal).txState = s.txState := rfl
@[simp] theorem State.answerIllegal_txWaitUntil : (s.answerIllegal).txWaitUntil = s.txWaitUntil := rfl
@[simp] theorem State.answerIllegal_txOut : (s.answerIllegal).txOut = s.txOut := rfl
@[simp] theorem State.answerIllegal_txFailValid : (s.answerIllegal).txFailValid = s.txFailValid := rfl
@[simp] theorem State.answerIllegal_txFailCode : (s.answerIllegal).txFailCode = s.txFailCode := rfl
@[simp] theorem State.answerIllegal_underrunLast : (s.answerIllegal).underrunLast = s.underrunLast := rfl
@[simp] theorem State.answerIllegal_player : (s.answerIllegal).player = s.player := rfl
@[simp] theorem State.answerIllegal_prState : (s.answerIllegal).prState = s.prState := rfl
@[simp] theorem State.answerIllegal_pullPlayer : (s.answerIllegal).pullPlayer = s.pullPlayer := rfl
@[simp] theorem State.answerIllegal_pullMax : (s.answerIllegal).pullMax = s.pullMax := rfl
@[simp] theorem State.answerIllegal_ssState : (s.answerIllegal).ssState = s.ssState := rfl
@[simp] theorem State.answerIllegal_misuse : (s.answerIllegal).misuse = s.misuse := rfl
@[simp] theorem State.answerIllegal_cuBusy : (s.answerIllegal).cuBusy = s.cuBusy := rfl
@[simp] theorem State.answerIllegal_faulted : (s.answerIllegal).faulted = s.faulted := rfl
@[simp] theorem State.answerIllegal_trace : (s.answerIllegal).trace = s.trace ++ [.resp RESP_ILLEGAL 0] := rfl
@[simp] theorem State.answerIllegal_now : (s.answerIllegal).now = s.now := rfl
@[simp] theorem State.answerIllegal_turns : (s.answerIllegal).turns = s.turns := rfl
@[simp] theorem State.answerIllegal_envRead : (s.answerIllegal).envRead = s.envRead := rfl
@[simp] theorem State.answerIllegal_envWrite : (s.answerIllegal).envWrite = s.envWrite := rfl
@[simp] theorem State.answerIllegal_envPull : (s.answerIllegal).envPull = s.envPull := rfl
@[simp] theorem State.answerIllegal_envAck : (s.answerIllegal).envAck = s.envAck := rfl
@[simp] theorem State.answerIllegal_envDevice : (s.answerIllegal).envDevice = s.envDevice := rfl
@[simp] theorem State.answerIllegal_envOpenDev : (s.answerIllegal).envOpenDev = s.envOpenDev := rfl
@[simp] theorem State.answerIllegal_clockBack : (s.answerIllegal).clockBack = s.clockBack := rfl
@[simp] theorem State.answerIllegal_codecWire : (s.answerIllegal).codecWire = s.codecWire := rfl
@[simp] theorem State.answerIllegal_codecFrame : (s.answerIllegal).codecFrame = s.codecFrame := rfl

/-! `raiseNeed` -/

@[simp] theorem State.raiseNeed_params : (s.raiseNeed).params = s.params := rfl
@[simp] theorem State.raiseNeed_syncState : (s.raiseNeed).syncState = s.syncState := rfl
@[simp] theorem State.raiseNeed_syncWork : (s.raiseNeed).syncWork = s.syncWork := rfl
@[simp] theorem State.raiseNeed_rdState : (s.raiseNeed).rdState = s.rdState := rfl
@[simp] theorem State.raiseNeed_rdBuf : (s.raiseNeed).rdBuf = s.rdBuf := rfl
@[simp] theorem State.raiseNeed_rdLen : (s.raiseNeed).rdLen = s.rdLen := rfl
@[simp] theorem State.raiseNeed_rdPos : (s.raiseNeed).rdPos = s.rdPos := rfl
@[simp] theorem State.raiseNeed_rdSleepUntil : (s.raiseNeed).rdSleepUntil = s.rdSleepUntil := rfl
@[simp] theorem State.raiseNeed_rdFailValid : (s.raiseNeed).rdFailValid = s.rdFailValid := rfl
@[simp] theorem State.raiseNeed_rdFailCode : (s.raiseNeed).rdFailCode = s.rdFailCode := rfl
@[simp] theorem State.raiseNeed_recReg : (s.raiseNeed).recReg = s.recReg := rfl
@[simp] theorem State.raiseNeed_dispFrame : (s.raiseNeed).dispFrame = s.dispFrame := rfl
@[simp] theorem State.raiseNeed_dispList : (s.raiseNeed).dispList = s.dispList := rfl
@[simp] theorem State.raiseNeed_dispIdx : (s.raiseNeed).dispIdx = s.dispIdx := rfl
@[simp] theorem State.raiseNeed_buf0 : (s.raiseNeed).buf0 = s.buf0 := rfl
@[simp] theorem State.raiseNeed_buf1 : (s.raiseNeed).buf1 = s.buf1 := rfl
@[simp] theorem State.raiseNeed_cnt0 : (s.raiseNeed).cnt0 = s.cnt0 := rfl
@[simp] theorem State.raiseNeed_cnt1 : (s.raiseNeed).cnt1 = s.cnt1 := rfl
@[simp] theorem State.raiseNeed_wsel : (s.raiseNeed).wsel = s.wsel := rfl
@[simp] theorem State.raiseNeed_widx : (s.raiseNeed).widx = s.widx := rfl
@[simp] theorem State.raiseNeed_need : (s.raiseNeed).need = true := rfl
@[simp] theorem State.raiseNeed_lock : (s.raiseNeed).lock = s.lock := rfl
@[simp] theorem State.raiseNeed_fill : (s.raiseNeed).fill = s.fill := rfl
@[simp] theorem State.raiseNeed_txState : (s.raiseNeed).txState = s.txState := rfl
@[simp] theorem State.raiseNeed_txWaitUntil : (s.raiseNeed).txWaitUntil = s.txWaitUntil := rfl
@[simp] theorem State.raiseNeed_txOut : (s.raiseNeed).txOut = s.txOut := rfl
@[simp] theorem State.raiseNeed_txFailValid : (s.raiseNeed).txFailValid = s.txFailValid := rfl
@[simp] theorem State.raiseNeed_txFailCode : (s.raiseNeed).txFailCode = s.txFailCode := rfl
@[simp] theorem State.raiseNeed_underrunLast : (s.raiseNeed).underrunLast = s.underrunLast := rfl
@[simp] theorem State.raiseNeed_player : (s.raiseNeed).player = s.player := rfl
@[simp] theorem State.raiseNeed_prState : (s.raiseNeed).prState = s.prState := rfl
@[simp] theorem State.raiseNeed_pullPlayer : (s.raiseNeed).pullPlayer = s.pullPlayer := rfl
@[simp] theorem State.raiseNeed_pullMax : (s.raiseNeed).pullMax = s.pullMax := rfl
@[simp] theorem State.raiseNeed_ssState : (s.raiseNeed).ssState = s.ssState := rfl
@[simp] theorem State.raiseNeed_misuse : (s.raiseNeed).misuse = s.misuse := rfl
@[simp] theorem State.raiseNeed_cuBusy : (s.raiseNeed).cuBusy = s.cuBusy := rfl
@[simp] theorem State.raiseNeed_faulted : (s.raiseNeed).faulted = s.faulted := rfl
@[simp] theorem State.raiseNeed_trace : (s.raiseNeed).trace = s.trace := rfl
@[simp] theorem State.raiseNeed_now : (s.raiseNeed).now = s.now := rfl
@[simp] theorem State.raiseNeed_turns : (s.raiseNeed).turns = s.turns := rfl
@[simp] theorem State.raiseNeed_envRead : (s.raiseNeed).envRead = s.envRead := rfl
@[simp] theorem State.raiseNeed_envWrite : (s.raiseNeed).envWrite = s.envWrite := rfl
@[simp] theorem State.raiseNeed_envPull : (s.raiseNeed).envPull = s.envPull := rfl
@[simp] theorem State.raiseNeed_envAck : (s.raiseNeed).envAck = s.envAck := rfl
@[simp] theorem State.raiseNeed_envDevice : (s.raiseNeed).envDevice = s.envDevice := rfl
@[simp] theorem State.raiseNeed_envOpenDev : (s.raiseNeed).envOpenDev = s.envOpenDev := rfl
@[simp] theorem State.raiseNeed_clockBack : (s.raiseNeed).clockBack = s.clockBack := rfl
@[simp] theorem State.raiseNeed_codecWire : (s.raiseNeed).codecWire = s.codecWire := rfl
@[simp] theorem State.raiseNeed_codecFrame : (s.raiseNeed).codecFrame = s.codecFrame := rfl

/-! `rdStart` -/

@[simp] theorem State.rdStart_params : (s.rdStart).params = s.params := rfl
@[simp] theorem State.rdStart_syncState : (s.rdStart).syncState = UNSYNC := rfl
@[simp] theorem State.rdStart_syncWork : (s.rdStart).syncWork = s.syncWork := rfl
@[simp] theorem State.rdStart_rdState : (s.rdStart).rdState = RD_READ := rfl
@[simp] theorem State.rdStart_rdBuf : (s.rdStart).rdBuf = s.rdBuf := rfl
@[simp] theorem State.rdStart_rdLen : (s.rdStart).rdLen = 0 := rfl
@[simp] theorem State.rdStart_rdPos : (s.rdStart).rdPos = 0 := rfl
@[simp] theorem State.rdStart_rdSleepUntil : (s.rdStart).rdSleepUntil = s.rdSleepUntil := rfl
@[simp] theorem State.rdStart_rdFailValid : (s.rdStart).rdFailValid = false := rfl
@[simp] theorem State.rdStart_rdFailCode : (s.rdStart).rdFailCode = 0 := rfl
@[simp] theorem State.rdStart_recReg : (s.rdStart).recReg = s.recReg := rfl
@[simp] theorem State.rdStart_dispFrame : (s.rdStart).dispFrame = s.dispFrame := rfl
@[simp] theorem State.rdStart_dispList :
    (s.rdStart).dispList = if s.params.startKeepsDispatch then s.dispList else [] := rfl
@[simp] theorem State.rdStart_dispIdx :
    (s.rdStart).dispIdx = if s.params.startKeepsDispatch then s.dispIdx else 0 := rfl
@[simp] theorem State.rdStart_buf0 : (s.rdStart).buf0 = s.buf0 := rfl
@[simp] theorem State.rdStart_buf1 : (s.rdStart).buf1 = s.buf1 := rfl
@[simp] theorem State.rdStart_cnt0 : (s.rdStart).cnt0 = s.cnt0 := rfl
@[simp] theorem State.rdStart_cnt1 : (s.rdStart).cnt1 = s.cnt1 := rfl
@[simp] theorem State.rdStart_wsel : (s.rdStart).wsel = s.wsel := rfl
@[simp] theorem State.rdStart_widx : (s.rdStart).widx = s.widx := rfl
@[simp] theorem State.rdStart_need : (s.rdStart).need = s.need := rfl
@[simp] theorem State.rdStart_lock : (s.rdStart).lock = s.lock := rfl
@[simp] theorem State.rdStart_fill : (s.rdStart).fill = s.fill := rfl
@[simp] theorem State.rdStart_txState : (s.rdStart).txState = s.txState := rfl
@[simp] theorem State.rdStart_txWaitUntil : (s.rdStart).txWaitUntil = s.txWaitUntil := rfl
@[simp] theorem State.rdStart_txOut : (s.rdStart).txOut = s.txOut := rfl
@[simp] theorem State.rdStart_txFailValid : (s.rdStart).txFailValid = s.txFailValid := rfl
@[simp] theorem State.rdStart_txFailCode : (s.rdStart).txFailCode = s.txFailCode := rfl
@[simp] theorem State.rdStart_underrunLast : (s.rdStart).underrunLast = s.underrunLast := rfl
@[simp] theorem State.rdStart_player : (s.rdStart).player = s.player := rfl
@[simp] theorem State.rdStart_prState : (s.rdStart).prState = s.prState := rfl
@[simp] theorem State.rdStart_pullPlayer : (s.rdStart).pullPlayer = s.pullPlayer := rfl
@[simp] theorem State.rdStart_pullMax : (s.rdStart).pullMax = s.pullMax := rfl
@[simp] theorem State.rdStart_ssState : (s.rdStart).ssState = s.ssState := rfl
@[simp] theorem State.rdStart_misuse : (s.rdStart).misuse = s.misuse := rfl
@[simp] theorem State.rdStart_cuBusy : (s.rdStart).cuBusy = s.cuBusy := rfl
@[simp] theorem State.rdStart_faulted : (s.rdStart).faulted = s.faulted := rfl
@[simp] theorem State.rdStart_trace : (s.rdStart).trace = s.trace := rfl
@[simp] theorem State.rdStart_now : (s.rdStart).now = s.now := rfl
@[simp] theorem State.rdStart_turns : (s.rdStart).turns = s.turns := rfl
@[simp] theorem State.rdStart_envRead : (s.rdStart).envRead = s.envRead := rfl
@[simp] theorem State.rdStart_envWrite : (s.rdStart).envWrite = s.envWrite := rfl
@[simp] theorem State.rdStart_envPull : (s.rdStart).envPull = s.envPull := rfl
@[simp] theorem State.rdStart_envAck : (s.rdStart).envAck = s.envAck := rfl
@[simp] theorem State.rdStart_envDevice : (s.rdStart).envDevice = s.envDevice := rfl
@[simp] theorem State.rdStart_envOpenDev : (s.rdStart).envOpenDev = s.envOpenDev := rfl
@[simp] theorem State.rdStart_clockBack : (s.rdStart).clockBack = s.clockBack := rfl
@[simp] theorem State.rdStart_codecWire : (s.rdStart).codecWire = s.codecWire := rfl
@[simp] theorem State.rdStart_codecFrame : (s.rdStart).codecFrame = s.codecFrame := rfl

/-! `rdClose` -/

@[simp] theorem State.rdClose_params : (s.rdClose).params = s.params := rfl
@[simp] theorem State.rdClose_syncState : (s.rdClose).syncState = s.syncState := rfl
@[simp] theorem State.rdClose_syncWork : (s.rdClose).syncWork = s.syncWork := rfl
@[simp] theorem State.rdClose_rdState : (s.rdClose).rdState = RD_STOPPED := rfl
@[simp] theorem State.rdClose_rdBuf : (s.rdClose).rdBuf = s.rdBuf := rfl
@[simp] theorem State.rdClose_rdLen : (s.rdClose).rdLen = s.rdLen := rfl
@[simp] theorem State.rdClose_rdPos : (s.rdClose).rdPos = s.rdPos := rfl
@[simp] theorem State.rdClose_rdSleepUntil : (s.rdClose).rdSleepUntil = s.rdSleepUntil := rfl
@[simp] theorem State.rdClose_rdFailValid : (s.rdClose).rdFailValid = s.rdFailValid := rfl
@[simp] theorem State.rdClose_rdFailCode : (s.rdClose).rdFailCode = s.rdFailCode := rfl
@[simp] theorem State.rdClose_recReg : (s.rdClose).recReg = s.recReg := rfl
@[simp] theorem State.rdClose_dispFrame : (s.rdClose).dispFrame = s.dispFrame := rfl
@[simp] theorem State.rdClose_dispList : (s.rdClose).dispList = s.dispList := rfl
@[simp] theorem State.rdClose_dispIdx : (s.rdClose).dispIdx = s.dispIdx := rfl
@[simp] theorem State.rdClose_buf0 : (s.rdClose).buf0 = s.buf0 := rfl
@[simp] theorem State.rdClose_buf1 : (s.rdClose).buf1 = s.buf1 := rfl
@[simp] theorem State.rdClose_cnt0 : (s.rdClose).cnt0 = s.cnt0 := rfl
@[simp] theorem State.rdClose_cnt1 : (s.rdClose).cnt1 = s.cnt1 := rfl
@[simp] theorem State.rdClose_wsel : (s.rdClose).wsel = s.wsel := rfl
@[simp] theorem State.rdClose_widx : (s.rdClose).widx = s.widx := rfl
@[simp] theorem State.rdClose_need : (s.rdClose).need = s.need := rfl
@[simp] theorem State.rdClose_lock : (s.rdClose).lock = s.lock := rfl
@[simp] theorem State.rdClose_fill : (s.rdClose).fill = s.fill := rfl
@[simp] theorem State.rdClose_txState : (s.rdClose).txState = s.txState := rfl
@[simp] theorem State.rdClose_txWaitUntil : (s.rdClose).txWaitUntil = s.txWaitUntil := rfl
@[simp] theorem State.rdClose_txOut : (s.rdClose).txOut = s.txOut := rfl
@[simp] theorem State.rdClose_txFailValid : (s.rdClose).txFailValid = s.txFailValid := rfl
@[simp] theorem State.rdClose_txFailCode : (s.rdClose).txFailCode = s.txFailCode := rfl
@[simp] theorem State.rdClose_underrunLast : (s.rdClose).underrunLast = s.underrunLast := rfl
@[simp] theorem State.rdClose_player : (s.rdClose).player = s.player := rfl
@[simp] theorem State.rdClose_prState : (s.rdClose).prState = s.prState := rfl
@[simp] theorem State.rdClose_pullPlayer : (s.rdClose).pullPlayer = s.pullPlayer := rfl
@[simp] theorem State.rdClose_pullMax : (s.rdClose).pullMax = s.pullMax := rfl
@[simp] theorem State.rdClose_ssState : (s.rdClose).ssState = s.ssState := rfl
@[simp] theorem State.rdClose_misuse : (s.rdClose).misuse = s.misuse := rfl
@[simp] theorem State.rdClose_cuBusy : (s.rdClose).cuBusy = s.cuBusy := rfl
@[simp] theorem State.rdClose_faulted : (s.rdClose).faulted = s.faulted := rfl
@[simp] theorem State.rdClose_trace : (s.rdClose).trace = s.trace := rfl
@[simp] theorem State.rdClose_now : (s.rdClose).now = s.now := rfl
@[simp] theorem State.rdClose_turns : (s.rdClose).turns = s.turns := rfl
@[simp] theorem State.rdClose_envRead : (s.rdClose).envRead = s.envRead := rfl
@[simp] theorem State.rdClose_envWrite : (s.rdClose).envWrite = s.envWrite := rfl
@[simp] theorem State.rdClose_envPull : (s.rdClose).envPull = s.envPull := rfl
@[simp] theorem State.rdClose_envAck : (s.rdClose).envAck = s.envAck := rfl
@[simp] theorem State.rdClose_envDevice : (s.rdClose).envDevice = s.envDevice := rfl
@[simp] theorem State.rdClose_envOpenDev : (s.rdClose).envOpenDev = s.envOpenDev := rfl
@[simp] theorem State.rdClose_clockBack : (s.rdClose).clockBack = s.clockBack := rfl
@[simp] theorem State.rdClose_codecWire : (s.rdClose).codecWire = s.codecWire := rfl
@[simp] theorem State.rdClose_codecFrame : (s.rdClose).codecFrame = s.codecFrame := rfl

/-! `txStart` -/

@[simp] theorem State.txStart_params : (s.txStart).params = s.params := rfl
@[simp] theorem State.txStart_syncState : (s.txStart).syncState = s.syncState := rfl
@[simp] theorem State.txStart_syncWork : (s.txStart).syncWork = s.syncWork := rfl
@[simp] theorem State.txStart_rdState : (s.txStart).rdState = s.rdState := rfl
@[simp] theorem State.txStart_rdBuf : (s.txStart).rdBuf = s.rdBuf := rfl
@[simp] theorem State.txStart_rdLen : (s.txStart).rdLen = s.rdLen := rfl
@[simp] theorem State.txStart_rdPos : (s.txStart).rdPos = s.rdPos := rfl
@[simp] theorem State.txStart_rdSleepUntil : (s.txStart).rdSleepUntil = s.rdSleepUntil := rfl
@[simp] theorem State.txStart_rdFailValid : (s.txStart).rdFailValid = s.rdFailValid := rfl
@[simp] theorem State.txStart_rdFailCode : (s.txStart).rdFailCode = s.rdFailCode := rfl
@[simp] theorem State.txStart_recReg : (s.txStart).recReg = (if LISTENER ∈ s.recReg then s.recReg else s.recReg ++ [LISTENER]) := rfl
@[simp] theorem State.txStart_dispFrame : (s.txStart).dispFrame = s.dispFrame := rfl
@[simp] theorem State.txStart_dispList : (s.txStart).dispList = s.dispList := rfl
@[simp] theorem State.txStart_dispIdx : (s.txStart).dispIdx = s.dispIdx := rfl
@[simp] theorem State.txStart_buf0 : (s.txStart).buf0 = s.buf0 := rfl
@[simp] theorem State.txStart_buf1 : (s.txStart).buf1 = s.buf1 := rfl
@[simp] theorem State.txStart_cnt0 : (s.txStart).cnt0 = 0 := rfl
@[simp] theorem State.txStart_cnt1 : (s.txStart).cnt1 = 0 := rfl
@[simp] theorem State.txStart_wsel : (s.txStart).wsel = false := rfl
@[simp] theorem State.txStart_widx : (s.txStart).widx = 0 := rfl
@[simp] theorem State.txStart_need : (s.txStart).need = false := rfl
@[simp] theorem State.txStart_lock : (s.txStart).lock = false := rfl
@[simp] theorem State.txStart_fill : (s.txStart).fill = s.params.fillReset := rfl
@[simp] theorem State.txStart_txState : (s.txStart).txState = TX_PRELOAD := rfl
@[simp] theorem State.txStart_txWaitUntil : (s.txStart).txWaitUntil = s.txWaitUntil := rfl
@[simp] theorem State.txStart_txOut : (s.txStart).txOut = s.txOut := rfl
@[simp] theorem State.txStart_txFailValid : (s.txStart).txFailValid = false := rfl
@[simp] theorem State.txStart_txFailCode : (s.txStart).txFailCode = 0 := rfl
@[simp] theorem State.txStart_underrunLast : (s.txStart).underrunLast = none := rfl
@[simp] theorem State.txStart_player : (s.txStart).player = s.player := rfl
@[simp] theorem State.txStart_prState : (s.txStart).prState = PR_WAIT_NEED := rfl
@[simp] theorem State.txStart_pullPlayer : (s.txStart).pullPlayer = s.pullPlayer := rfl
@[simp] theorem State.txStart_pullMax : (s.txStart).pullMax = s.pullMax := rfl
@[simp] theorem State.txStart_ssState : (s.txStart).ssState = s.ssState := rfl
@[simp] theorem State.txStart_misuse : (s.txStart).misuse = s.misuse := rfl
@[simp] theorem State.txStart_cuBusy : (s.txStart).cuBusy = s.cuBusy := rfl
@[simp] theorem State.txStart_faulted : (s.txStart).faulted = s.faulted := rfl
@[simp] theorem State.txStart_trace : (s.txStart).trace = s.trace := rfl
@[simp] theorem State.txStart_now : (s.txStart).now = s.now := rfl
@[simp] theorem State.txStart_turns : (s.txStart).turns = s.turns := rfl
@[simp] theorem State.txStart_envRead : (s.txStart).envRead = s.envRead := rfl
@[simp] theorem State.txStart_envWrite : (s.txStart).envWrite = s.envWrite := rfl
@[simp] theorem State.txStart_envPull : (s.txStart).envPull = s.envPull := rfl
@[simp] theorem State.txStart_envAck : (s.txStart).envAck = s.envAck := rfl
@[simp] theorem State.txStart_envDevice : (s.txStart).envDevice = s.envDevice := rfl
@[simp] theorem State.txStart_envOpenDev : (s.txStart).envOpenDev = s.envOpenDev := rfl
@[simp] theorem State.txStart_clockBack : (s.txStart).clockBack = s.clockBack := rfl
@[simp] theorem State.txStart_codecWire : (s.txStart).codecWire = s.codecWire := rfl
@[simp] theorem State.txStart_codecFrame : (s.txStart).codecFrame = s.codecFrame := rfl

/-! `txClose` -/

@[simp] theorem State.txClose_params : (s.txClose).params = s.params := rfl
@[simp] theorem State.txClose_syncState : (s.txClose).syncState = s.syncState := rfl
@[simp] theorem State.txClose_syncWork : (s.txClose).syncWork = s.syncWork := rfl
@[simp] theorem State.txClose_rdState : (s.txClose).rdState = s.rdState := rfl
@[simp] theorem State.txClose_rdBuf : (s.txClose).rdBuf = s.rdBuf := rfl
@[simp] theorem State.txClose_rdLen : (s.txClose).rdLen = s.rdLen := rfl
@[simp] theorem State.txClose_rdPos : (s.txClose).rdPos = s.rdPos := rfl
@[simp] theorem State.txClose_rdSleepUntil : (s.txClose).rdSleepUntil = s.rdSleepUntil := rfl
@[simp] theorem State.txClose_rdFailValid : (s.txClose).rdFailValid = s.rdFailValid := rfl
@[simp] theorem State.txClose_rdFailCode : (s.txClose).rdFailCode = s.rdFailCode := rfl
@[simp] theorem State.txClose_recReg : (s.txClose).recReg = s.recReg.filter (· ≠ LISTENER) := rfl
@[simp] theorem State.txClose_dispFrame : (s.txClose).dispFrame = s.dispFrame := rfl
@[simp] theorem State.txClose_dispList : (s.txClose).dispList = s.dispList := rfl
@[simp] theorem State.txClose_dispIdx : (s.txClose).dispIdx = s.dispIdx := rfl
@[simp] theorem State.txClose_buf0 : (s.txClose).buf0 = s.buf0 := rfl
@[simp] theorem State.txClose_buf1 : (s.txClose).buf1 = s.buf1 := rfl
@[simp] theorem State.txClose_cnt0 : (s.txClose).cnt0 = s.cnt0 := rfl
@[simp] theorem State.txClose_cnt1 : (s.txClose).cnt1 = s.cnt1 := rfl
@[simp] theorem State.txClose_wsel : (s.txClose).wsel = s.wsel := rfl
@[simp] theorem State.txClose_widx : (s.txClose).widx = s.widx := rfl
@[simp] theorem State.txClose_need : (s.txClose).need = s.need := rfl
@[simp] theorem State.txClose_lock : (s.txClose).lock = s.lock := rfl
@[simp] theorem State.txClose_fill : (s.txClose).fill = s.fill := rfl
@[simp] theorem State.txClose_txState : (s.txClose).txState = TX_STOPPED := rfl
@[simp] theorem State.txClose_txWaitUntil : (s.txClose).txWaitUntil = s.txWaitUntil := rfl
@[simp] theorem State.txClose_txOut : (s.txClose).txOut = s.txOut := rfl
@[simp] theorem State.txClose_txFailValid : (s.txClose).txFailValid = s.txFailValid := rfl
@[simp] theorem State.txClose_txFailCode : (s.txClose).txFailCode = s.txFailCode := rfl
@[simp] theorem State.txClose_underrunLast : (s.txClose).underrunLast = s.underrunLast := rfl
@[simp] theorem State.txClose_player : (s.txClose).player = s.player := rfl
@[simp] theorem State.txClose_prState : (s.txClose).prState = PR_STOPPED := rfl
@[simp] theorem State.txClose_pullPlayer : (s.txClose).pullPlayer = s.pullPlayer := rfl
@[simp] theorem State.txClose_pullMax : (s.txClose).pullMax = s.pullMax := rfl
@[simp] theorem State.txClose_ssState : (s.txClose).ssState = s.ssState := rfl
@[simp] theorem State.txClose_misuse : (s.txClose).misuse = s.misuse := rfl
@[simp] theorem State.txClose_cuBusy : (s.txClose).cuBusy = s.cuBusy := rfl
@[simp] theorem State.txClose_faulted : (s.txClose).faulted = s.faulted := rfl
@[simp] theorem State.txClose_trace : (s.txClose).trace = s.trace := rfl
@[simp] theorem State.txClose_now : (s.txClose).now = s.now := rfl
@[simp] theorem State.txClose_turns : (s.txClose).turns = s.turns := rfl
@[simp] theorem State.txClose_envRead : (s.txClose).envRead = s.envRead := rfl
@[simp] theorem State.txClose_envWrite : (s.txClose).envWrite = s.envWrite := rfl
@[simp] theorem State.txClose_envPull : (s.txClose).envPull = s.envPull := rfl
@[simp] theorem State.txClose_envAck : (s.txClose).envAck = s.envAck := rfl
@[simp] theorem State.txClose_envDevice : (s.txClose).envDevice = s.envDevice := rfl
@[simp] theorem State.txClose_envOpenDev : (s.txClose).envOpenDev = s.envOpenDev := rfl
@[simp] theorem State.txClose_clockBack : (s.txClose).clockBack = s.clockBack := rfl
@[simp] theorem State.txClose_codecWire : (s.txClose).codecWire = s.codecWire := rfl
@[simp] theorem State.txClose_codecFrame : (s.txClose).codecFrame = s.codecFrame := rfl

/-! `popTurn` -/

@[simp] theorem State.popTurn_params : (s.popTurn).params = s.params := rfl
@[simp] theorem State.popTurn_syncState : (s.popTurn).syncState = s.syncState := rfl
@[simp] theorem State.popTurn_syncWork : (s.popTurn).syncWork = s.syncWork := rfl
@[simp] theorem State.popTurn_rdState : (s.popTurn).rdState = s.rdState := rfl
@[simp] theorem State.popTurn_rdBuf : (s.popTurn).rdBuf = s.rdBuf := rfl
@[simp] theorem State.popTurn_rdLen : (s.popTurn).rdLen = s.rdLen := rfl
@[simp] theorem State.popTurn_rdPos : (s.popTurn).rdPos = s.rdPos := rfl
@[simp] theorem State.popTurn_rdSleepUntil : (s.popTurn).rdSleepUntil = s.rdSleepUntil := rfl
@[simp] theorem State.popTurn_rdFailValid : (s.popTurn).rdFailValid = s.rdFailValid := rfl
@[simp] theorem State.popTurn_rdFailCode : (s.popTurn).rdFailCode = s.rdFailCode := rfl
@[simp] theorem State.popTurn_recReg : (s.popTurn).recReg = s.recReg := rfl
@[simp] theorem State.popTurn_dispFrame : (s.popTurn).dispFrame = s.dispFrame := rfl
@[simp] theorem State.popTurn_dispList : (s.popTurn).dispList = s.dispList := rfl
@[simp] theorem State.popTurn_dispIdx : (s.popTurn).dispIdx = s.dispIdx := rfl
@[simp] theorem State.popTurn_buf0 : (s.popTurn).buf0 = s.buf0 := rfl
@[simp] theorem State.popTurn_buf1 : (s.popTurn).buf1 = s.buf1 := rfl
@[simp] theorem State.popTurn_cnt0 : (s.popTurn).cnt0 = s.cnt0 := rfl
@[simp] theorem State.popTurn_cnt1 : (s.popTurn).cnt1 = s.cnt1 := rfl
@[simp] theorem State.popTurn_wsel : (s.popTurn).wsel = s.wsel := rfl
@[simp] theorem State.popTurn_widx : (s.popTurn).widx = s.widx := rfl
@[simp] theorem State.popTurn_need : (s.popTurn).need = s.need := rfl
@[simp] theorem State.popTurn_lock : (s.popTurn).lock = s.lock := rfl
@[simp] theorem State.popTurn_fill : (s.popTurn).fill = s.fill := rfl
@[simp] theorem State.popTurn_txState : (s.popTurn).txState = s.txState := rfl
@[simp] theorem State.popTurn_txWaitUntil : (s.popTurn).txWaitUntil = s.txWaitUntil := rfl
@[simp] theorem State.popTurn_txOut : (s.popTurn).txOut = s.txOut := rfl
@[simp] theorem State.popTurn_txFailValid : (s.popTurn).txFailValid = s.txFailValid := rfl
@[simp] theorem State.popTurn_txFailCode : (s.popTurn).txFailCode = s.txFailCode := rfl
@[simp] theorem State.popTurn_underrunLast : (s.popTurn).underrunLast = s.underrunLast := rfl
@[simp] theorem State.popTurn_player : (s.popTurn).player = s.player := rfl
@[simp] theorem State.popTurn_prState : (s.popTurn).prState = s.prState := rfl
@[simp] theorem State.popTurn_pullPlayer : (s.popTurn).pullPlayer = s.pullPlayer := rfl
@[simp] theorem State.popTurn_pullMax : (s.popTurn).pullMax = s.pullMax := rfl
@[simp] theorem State.popTurn_ssState : (s.popTurn).ssState = s.ssState := rfl
@[simp] theorem State.popTurn_misuse : (s.popTurn).misuse = s.misuse := rfl
@[simp] theorem State.popTurn_cuBusy : (s.popTurn).cuBusy = s.cuBusy := rfl
@[simp] theorem State.popTurn_faulted : (s.popTurn).faulted = s.faulted := rfl
@[simp] theorem State.popTurn_trace : (s.popTurn).trace = s.trace := rfl
@[simp] theorem State.popTurn_now : (s.popTurn).now = s.now := rfl
@[simp] theorem State.popTurn_turns : (s.popTurn).turns = s.turns.tail := rfl
@[simp] theorem State.popTurn_envRead : (s.popTurn).envRead = s.envRead := rfl
@[simp] theorem State.popTurn_envWrite : (s.popTurn).envWrite = s.envWrite := rfl
@[simp] theorem State.popTurn_envPull : (s.popTurn).envPull = s.envPull := rfl
@[simp] theorem State.popTurn_envAck : (s.popTurn).envAck = s.envAck := rfl
@[simp] theorem State.popTurn_envDevice : (s.popTurn).envDevice = s.envDevice := rfl
@[simp] theorem State.popTurn_envOpenDev : (s.popTurn).envOpenDev = s.envOpenDev := rfl
@[simp] theorem State.popTurn_clockBack : (s.popTurn).clockBack = s.clockBack := rfl
@[simp] theorem State.popTurn_codecWire : (s.popTurn).codecWire = s.codecWire := rfl
@[simp] theorem State.popTurn_codecFrame : (s.popTurn).codecFrame = s.codecFrame := rfl

/-! `consumeByte` -/

@[simp] theorem State.consumeByte_params : (s.consumeByte).params = s.params := rfl
@[simp] theorem State.consumeByte_syncState : (s.consumeByte).syncState = s.syncState := rfl
@[simp] theorem State.consumeByte_syncWork : (s.consumeByte).syncWork = s.syncWork := rfl
@[simp] theorem State.consumeByte_rdState : (s.consumeByte).rdState = s.rdState := rfl
@[simp] theorem State.consumeByte_rdBuf : (s.consumeByte).rdBuf = s.rdBuf := rfl
@[simp] theorem State.consumeByte_rdLen : (s.consumeByte).rdLen = s.rdLen := rfl
@[simp] theorem State.consumeByte_rdPos : (s.consumeByte).rdPos = s.rdPos + 1 := rfl
@[simp] theorem State.consumeByte_rdSleepUntil : (s.consumeByte).rdSleepUntil = s.rdSleepUntil := rfl
@[simp] theorem State.consumeByte_rdFailValid : (s.consumeByte).rdFailValid = s.rdFailValid := rfl
@[simp] theorem State.consumeByte_rdFailCode : (s.consumeByte).rdFailCode = s.rdFailCode := rfl
@[simp] theorem State.consumeByte_recReg : (s.consumeByte).recReg = s.recReg := rfl
@[simp] theorem State.consumeByte_dispFrame : (s.consumeByte).dispFrame = s.dispFrame := rfl
@[simp] theorem State.consumeByte_dispList : (s.consumeByte).dispList = s.dispList := rfl
@[simp] theorem State.consumeByte_dispIdx : (s.consumeByte).dispIdx = s.dispIdx := rfl
@[simp] theorem State.consumeByte_buf0 : (s.consumeByte).buf0 = s.buf0 := rfl
@[simp] theorem State.consumeByte_buf1 : (s.consumeByte).buf1 = s.buf1 := rfl
@[simp] theorem State.consumeByte_cnt0 : (s.consumeByte).cnt0 = s.cnt0 := rfl
@[simp] theorem State.consumeByte_cnt1 : (s.consumeByte).cnt1 = s.cnt1 := rfl
@[simp] theorem State.consumeByte_wsel : (s.consumeByte).wsel = s.wsel := rfl
@[simp] theorem State.consumeByte_widx : (s.consumeByte).widx = s.widx := rfl
@[simp] theorem State.consumeByte_need : (s.consumeByte).need = s.need := rfl
@[simp] theorem State.consumeByte_lock : (s.consumeByte).lock = s.lock := rfl
@[simp] theorem State.consumeByte_fill : (s.consumeByte).fill = s.fill := rfl
@[simp] theorem State.consumeByte_txState : (s.consumeByte).txState = s.txState := rfl
@[simp] theorem State.consumeByte_txWaitUntil : (s.consumeByte).txWaitUntil = s.txWaitUntil := rfl
@[simp] theorem State.consumeByte_txOut : (s.consumeByte).txOut = s.txOut := rfl
@[simp] theorem State.consumeByte_txFailValid : (s.consumeByte).txFailValid = s.txFailValid := rfl
@[simp] theorem State.consumeByte_txFailCode : (s.consumeByte).txFailCode = s.txFailCode := rfl
@[simp] theorem State.consumeByte_underrunLast : (s.consumeByte).underrunLast = s.underrunLast := rfl
@[simp] theorem State.consumeByte_player : (s.consumeByte).player = s.player := rfl
@[simp] theorem State.consumeByte_prState : (s.consumeByte).prState = s.prState := rfl
@[simp] theorem State.consumeByte_pullPlayer : (s.consumeByte).pullPlayer = s.pullPlayer := rfl
@[simp] theorem State.consumeByte_pullMax : (s.consumeByte).pullMax = s.pullMax := rfl
@[simp] theorem State.consumeByte_ssState : (s.consumeByte).ssState = s.ssState := rfl
@[simp] theorem State.consumeByte_misuse : (s.consumeByte).misuse = s.misuse := rfl
@[simp] theorem State.consumeByte_cuBusy : (s.consumeByte).cuBusy = s.cuBusy := rfl
@[simp] theorem State.consumeByte_faulted : (s.consumeByte).faulted = s.faulted := rfl
@[simp] theorem State.consumeByte_trace : (s.consumeByte).trace = s.trace := rfl
@[simp] theorem State.consumeByte_now : (s.consumeByte).now = s.now := rfl
@[simp] theorem State.consumeByte_turns : (s.consumeByte).turns = s.turns := rfl
@[simp] theorem State.consumeByte_envRead : (s.consumeByte).envRead = s.envRead := rfl
@[simp] theorem State.consumeByte_envWrite : (s.consumeByte).envWrite = s.envWrite := rfl
@[simp] theorem State.consumeByte_envPull : (s.consumeByte).envPull = s.envPull := rfl
@[simp] theorem State.consumeByte_envAck : (s.consumeByte).envAck = s.envAck := rfl
@[simp] theorem State.consumeByte_envDevice : (s.consumeByte).envDevice = s.envDevice := rfl
@[simp] theorem State.consumeByte_envOpenDev : (s.consumeByte).envOpenDev = s.envOpenDev := rfl
@[simp] theorem State.consumeByte_clockBack : (s.consumeByte).clockBack = s.clockBack := rfl
@[simp] theorem State.consumeByte_codecWire : (s.consumeByte).codecWire = s.codecWire := rfl
@[simp] theorem State.consumeByte_codecFrame : (s.consumeByte).codecFrame = s.codecFrame := rfl

/-! `setBuf` -/

@[simp] theorem State.setBuf_params (b : Bool) (m : Memory Frame) : (s.setBuf b m).params = s.params := by cases b <;> rfl
@[simp] theorem State.setBuf_syncState (b : Bool) (m : Memory Frame) : (s.setBuf b m).syncState = s.syncState := by cases b <;> rfl
@[simp] theorem State.setBuf_syncWork (b : Bool) (m : Memory Frame) : (s.setBuf b m).syncWork = s.syncWork := by cases b <;> rfl
@[simp] theorem State.setBuf_rdState (b : Bool) (m : Memory Frame) : (s.setBuf b m).rdState = s.rdState := by cases b <;> rfl
@[simp] theorem State.setBuf_rdBuf (b : Bool) (m : Memory Frame) : (s.setBuf b m).rdBuf = s.rdBuf := by cases b <;> rfl
@[simp] theorem State.setBuf_rdLen (b : Bool) (m : Memory Frame) : (s.setBuf b m).rdLen = s.rdLen := by cases b <;> rfl
@[simp] theorem State.setBuf_rdPos (b : Bool) (m : Memory Frame) : (s.setBuf b m).rdPos = s.rdPos := by cases b <;> rfl
@[simp] theorem State.setBuf_rdSleepUntil (b : Bool) (m : Memory Frame) : (s.setBuf b m).rdSleepUntil = s.rdSleepUntil := by cases b <;> rfl
@[simp] theorem State.setBuf_rdFailValid (b : Bool) (m : Memory Frame) : (s.setBuf b m).rdFailValid = s.rdFailValid := by cases b <;> rfl
@[simp] theorem State.setBuf_rdFailCode (b : Bool) (m : Memory Frame) : (s.setBuf b m).rdFailCode = s.rdFailCode := by cases b <;> rfl
@[simp] theorem State.setBuf_recReg (b : Bool) (m : Memory Frame) : (s.setBuf b m).recReg = s.recReg := by cases b <;> rfl
@[simp] theorem State.setBuf_dispFrame (b : Bool) (m : Memory Frame) : (s.setBuf b m).dispFrame = s.dispFrame := by cases b <;> rfl
@[simp] theorem State.setBuf_dispList (b : Bool) (m : Memory Frame) : (s.setBuf b m).dispList = s.dispList := by cases b <;> rfl
@[simp] theorem State.setBuf_dispIdx (b : Bool) (m : Memory Frame) : (s.setBuf b m).dispIdx = s.dispIdx := by cases b <;> rfl
@[simp] theorem State.setBuf_buf0 (b : Bool) (m : Memory Frame) : (s.setBuf b m).buf0 = if b then s.buf0 else m := by cases b <;> rfl
@[simp] theorem State.setBuf_buf1 (b : Bool) (m : Memory Frame) : (s.setBuf b m).buf1 = if b then m else s.buf1 := by cases b <;> rfl
@[simp] theorem State.setBuf_cnt0 (b : Bool) (m : Memory Frame) : (s.setBuf b m).cnt0 = s.cnt0 := by cases b <;> rfl
@[simp] theorem State.setBuf_cnt1 (b : Bool) (m : Memory Frame) : (s.setBuf b m).cnt1 = s.cnt1 := by cases b <;> rfl
@[simp] theorem State.setBuf_wsel (b : Bool) (m : Memory Frame) : (s.setBuf b m).wsel = s.wsel := by cases b <;> rfl
@[simp] theorem State.setBuf_widx (b : Bool) (m : Memory Frame) : (s.setBuf b m).widx = s.widx := by cases b <;> rfl
@[simp] theorem State.setBuf_need (b : Bool) (m : Memory Frame) : (s.setBuf b m).need = s.need := by cases b <;> rfl
@[simp] theorem State.setBuf_lock (b : Bool) (m : Memory Frame) : (s.setBuf b m).lock = s.lock := by cases b <;> rfl
@[simp] theorem State.setBuf_fill (b : Bool) (m : Memory Frame) : (s.setBuf b m).fill = s.fill := by cases b <;> rfl
@[simp] theorem State.setBuf_txState (b : Bool) (m : Memory Frame) : (s.setBuf b m).txState = s.txState := by cases b <;> rfl
@[simp] theorem State.setBuf_txWaitUntil (b : Bool) (m : Memory Frame) : (s.setBuf b m).txWaitUntil = s.txWaitUntil := by cases b <;> rfl
@[simp] theorem State.setBuf_txOut (b : Bool) (m : Memory Frame) : (s.setBuf b m).txOut = s.txOut := by cases b <;> rfl
@[simp] theorem State.setBuf_txFailValid (b : Bool) (m : Memory Frame) : (s.setBuf b m).txFailValid = s.txFailValid := by cases b <;> rfl
@[simp] theorem State.setBuf_txFailCode (b : Bool) (m : Memory Frame) : (s.setBuf b m).txFailCode = s.txFailCode := by cases b <;> rfl
@[simp] theorem State.setBuf_underrunLast (b : Bool) (m : Memory Frame) : (s.setBuf b m).underrunLast = s.underrunLast := by cases b <;> rfl
@[simp] theorem State.setBuf_player (b : Bool) (m : Memory Frame) : (s.setBuf b m).player = s.player := by cases b <;> rfl
@[simp] theorem State.setBuf_prState (b : Bool) (m : Memory Frame) : (s.setBuf b m).prState = s.prState := by cases b <;> rfl
@[simp] theorem State.setBuf_pullPlayer (b : Bool) (m : Memory Frame) : (s.setBuf b m).pullPlayer = s.pullPlayer := by cases b <;> rfl
@[simp] theorem State.setBuf_pullMax (b : Bool) (m : Memory Frame) : (s.setBuf b m).pullMax = s.pullMax := by cases b <;> rfl
@[simp] theorem State.setBuf_ssState (b : Bool) (m : Memory Frame) : (s.setBuf b m).ssState = s.ssState := by cases b <;> rfl
@[simp] theorem State.setBuf_misuse (b : Bool) (m : Memory Frame) : (s.setBuf b m).misuse = s.misuse := by cases b <;> rfl
@[simp] theorem State.setBuf_cuBusy (b : Bool) (m : Memory Frame) : (s.setBuf b m).cuBusy = s.cuBusy := by cases b <;> rfl
@[simp] theorem State.setBuf_faulted (b : Bool) (m : Memory Frame) : (s.setBuf b m).faulted = s.faulted := by cases b <;> rfl
@[simp] theorem State.setBuf_trace (b : Bool) (m : Memory Frame) : (s.setBuf b m).trace = s.trace := by cases b <;> rfl
@[simp] theorem State.setBuf_now (b : Bool) (m : Memory Frame) : (s.setBuf b m).now = s.now := by cases b <;> rfl
@[simp] theorem State.setBuf_turns (b : Bool) (m : Memory Frame) : (s.setBuf b m).turns = s.turns := by cases b <;> rfl
@[simp] theorem State.setBuf_envRead (b : Bool) (m : Memory Frame) : (s.setBuf b m).envRead = s.envRead := by cases b <;> rfl
@[simp] theorem State.setBuf_envWrite (b : Bool) (m : Memory Frame) : (s.setBuf b m).envWrite = s.envWrite := by cases b <;> rfl
@[simp] theorem State.setBuf_envPull (b : Bool) (m : Memory Frame) : (s.setBuf b m).envPull = s.envPull := by cases b <;> rfl
@[simp] theorem State.setBuf_envAck (b : Bool) (m : Memory Frame) : (s.setBuf b m).envAck = s.envAck := by cases b <;> rfl
@[simp] theorem State.setBuf_envDevice (b : Bool) (m : Memory Frame) : (s.setBuf b m).envDevice = s.envDevice := by cases b <;> rfl
@[simp] theorem State.setBuf_envOpenDev (b : Bool) (m : Memory Frame) : (s.setBuf b m).envOpenDev = s.envOpenDev := by cases b <;> rfl
@[simp] theorem State.setBuf_clockBack (b : Bool) (m : Memory Frame) : (s.setBuf b m).clockBack = s.clockBack := by cases b <;> rfl
@[simp] theorem State.setBuf_codecWire (b : Bool) (m : Memory Frame) : (s.setBuf b m).codecWire = s.codecWire := by cases b <;> rfl
@[simp] theorem State.setBuf_codecFrame (b : Bool) (m : Memory Frame) : (s.setBuf b m).codecFrame = s.codecFrame := by cases b <;> rfl

/-! `setCnt` -/

@[simp] theorem State.setCnt_params (b : Bool) (n : Nat) : (s.setCnt b n).params = s.params := by cases b <;> rfl
@[simp] theorem State.setCnt_syncState (b : Bool) (n : Nat) : (s.setCnt b n).syncState = s.syncState := by cases b <;> rfl
@[simp] theorem State.setCnt_syncWork (b : Bool) (n : Nat) : (s.setCnt b n).syncWork = s.syncWork := by cases b <;> rfl
@[simp] theorem State.setCnt_rdState (b : Bool) (n : Nat) : (s.setCnt b n).rdState = s.rdState := by cases b <;> rfl
@[simp] theorem State.setCnt_rdBuf (b : Bool) (n : Nat) : (s.setCnt b n).rdBuf = s.rdBuf := by cases b <;> rfl
@[simp] theorem State.setCnt_rdLen (b : Bool) (n : Nat) : (s.setCnt b n).rdLen = s.rdLen := by cases b <;> rfl
@[simp] theorem State.setCnt_rdPos (b : Bool) (n : Nat) : (s.setCnt b n).rdPos = s.rdPos := by cases b <;> rfl
@[simp] theorem State.setCnt_rdSleepUntil (b : Bool) (n : Nat) : (s.setCnt b n).rdSleepUntil = s.rdSleepUntil := by cases b <;> rfl
@[simp] theorem State.setCnt_rdFailValid (b : Bool) (n : Nat) : (s.setCnt b n).rdFailValid = s.rdFailValid := by cases b <;> rfl
@[simp] theorem State.setCnt_rdFailCode (b : Bool) (n : Nat) : (s.setCnt b n).rdFailCode = s.rdFailCode := by cases b <;> rfl
@[simp] theorem State.setCnt_recReg (b : Bool) (n : Nat) : (s.setCnt b n).recReg = s.recReg := by cases b <;> rfl
@[simp] theorem State.setCnt_dispFrame (b : Bool) (n : Nat) : (s.setCnt b n).dispFrame = s.dispFrame := by cases b <;> rfl
@[simp] theorem State.setCnt_dispList (b : Bool) (n : Nat) : (s.setCnt b n).dispList = s.dispList := by cases b <;> rfl
@[simp] theorem State.setCnt_dispIdx (b : Bool) (n : Nat) : (s.setCnt b n).dispIdx = s.dispIdx := by cases b <;> rfl
@[simp] theorem State.setCnt_buf0 (b : Bool) (n : Nat) : (s.setCnt b n).buf0 = s.buf0 := by cases b <;> rfl
@[simp] theorem State.setCnt_buf1 (b : Bool) (n : Nat) : (s.setCnt b n).buf1 = s.buf1 := by cases b <;> rfl
@[simp] theorem State.setCnt_cnt0 (b : Bool) (n : Nat) : (s.setCnt b n).cnt0 = if b then s.cnt0 else n := by cases b <;> rfl
@[simp] theorem State.setCnt_cnt1 (b : Bool) (n : Nat) : (s.setCnt b n).cnt1 = if b then n else s.cnt1 := by cases b <;> rfl
@[simp] theorem State.setCnt_wsel (b : Bool) (n : Nat) : (s.setCnt b n).wsel = s.wsel := by cases b <;> rfl
@[simp] theorem State.setCnt_widx (b : Bool) (n : Nat) : (s.setCnt b n).widx = s.widx := by cases b <;> rfl
@[simp] theorem State.setCnt_need (b : Bool) (n : Nat) : (s.setCnt b n).need = s.need := by cases b <;> rfl
@[simp] theorem State.setCnt_lock (b : Bool) (n : Nat) : (s.setCnt b n).lock = s.lock := by cases b <;> rfl
@[simp] theorem State.setCnt_fill (b : Bool) (n : Nat) : (s.setCnt b n).fill = s.fill := by cases b <;> rfl
@[simp] theorem State.setCnt_txState (b : Bool) (n : Nat) : (s.setCnt b n).txState = s.txState := by cases b <;> rfl
@[simp] theorem State.setCnt_txWaitUntil (b : Bool) (n : Nat) : (s.setCnt b n).txWaitUntil = s.txWaitUntil := by cases b <;> rfl
@[simp] theorem State.setCnt_txOut (b : Bool) (n : Nat) : (s.setCnt b n).txOut = s.txOut := by cases b <;> rfl
@[simp] theorem State.setCnt_txFailValid (b : Bool) (n : Nat) : (s.setCnt b n).txFailValid = s.txFailValid := by cases b <;> rfl
@[simp] theorem State.setCnt_txFailCode (b : Bool) (n : Nat) : (s.setCnt b n).txFailCode = s.txFailCode := by cases b <;> rfl
@[simp] theorem State.setCnt_underrunLast (b : Bool) (n : Nat) : (s.setCnt b n).underrunLast = s.underrunLast := by cases b <;> rfl
@[simp] theorem State.setCnt_player (b : Bool) (n : Nat) : (s.setCnt b n).player = s.player := by cases b <;> rfl
@[simp] theorem State.setCnt_prState (b : Bool) (n : Nat) : (s.setCnt b n).prState = s.prState := by cases b <;> rfl
@[simp] theorem State.setCnt_pullPlayer (b : Bool) (n : Nat) : (s.setCnt b n).pullPlayer = s.pullPlayer := by cases b <;> rfl
@[simp] theorem State.setCnt_pullMax (b : Bool) (n : Nat) : (s.setCnt b n).pullMax = s.pullMax := by cases b <;> rfl
@[simp] theorem State.setCnt_ssState (b : Bool) (n : Nat) : (s.setCnt b n).ssState = s.ssState := by cases b <;> rfl
@[simp] theorem State.setCnt_misuse (b : Bool) (n : Nat) : (s.setCnt b n).misuse = s.misuse := by cases b <;> rfl
@[simp] theorem State.setCnt_cuBusy (b : Bool) (n : Nat) : (s.setCnt b n).cuBusy = s.cuBusy := by cases b <;> rfl
@[simp] theorem State.setCnt_faulted (b : Bool) (n : Nat) : (s.setCnt b n).faulted = s.faulted := by cases b <;> rfl
@[simp] theorem State.setCnt_trace (b : Bool) (n : Nat) : (s.setCnt b n).trace = s.trace := by cases b <;> rfl
@[simp] theorem State.setCnt_now (b : Bool) (n : Nat) : (s.setCnt b n).now = s.now := by cases b <;> rfl
@[simp] theorem State.setCnt_turns (b : Bool) (n : Nat) : (s.setCnt b n).turns = s.turns := by cases b <;> rfl
@[simp] theorem State.setCnt_envRead (b : Bool) (n : Nat) : (s.setCnt b n).envRead = s.envRead := by cases b <;> rfl
@[simp] theorem State.setCnt_envWrite (b : Bool) (n : Nat) : (s.setCnt b n).envWrite = s.envWrite := by cases b <;> rfl
@[simp] theorem State.setCnt_envPull (b : Bool) (n : Nat) : (s.setCnt b n).envPull = s.envPull := by cases b <;> rfl
@[simp] theorem State.setCnt_envAck (b : Bool) (n : Nat) : (s.setCnt b n).envAck = s.envAck := by cases b <;> rfl
@[simp] theorem State.setCnt_envDevice (b : Bool) (n : Nat) : (s.setCnt b n).envDevice = s.envDevice := by cases b <;> rfl
@[simp] theorem State.setCnt_envOpenDev (b : Bool) (n : Nat) : (s.setCnt b n).envOpenDev = s.envOpenDev := by cases b <;> rfl
@[simp] theorem State.setCnt_clockBack (b : Bool) (n : Nat) : (s.setCnt b n).clockBack = s.clockBack := by cases b <;> rfl
@[simp] theorem State.setCnt_codecWire (b : Bool) (n : Nat) : (s.setCnt b n).codecWire = s.codecWire := by cases b <;> rfl
@[simp] theorem State.setCnt_codecFrame (b : Bool) (n : Nat) : (s.setCnt b n).codecFrame = s.codecFrame := by cases b <;> rfl

/-! Reading a buffer or a count by its index -/

@[simp] theorem State.setBuf_buf (b c : Bool) (m : Memory Frame) :
    (s.setBuf b m).buf c = if c = b then m else s.buf c := by cases b <;> cases c <;> rfl

@[simp] theorem State.setBuf_cnt (b c : Bool) (m : Memory Frame) : (s.setBuf b m).cnt c = s.cnt c := by
  cases b <;> cases c <;> rfl

@[simp] theorem State.setCnt_cnt (b c : Bool) (n : Nat) :
    (s.setCnt b n).cnt c = if c = b then n else s.cnt c := by cases b <;> cases c <;> rfl

@[simp] theorem State.setCnt_buf (b c : Bool) (n : Nat) : (s.setCnt b n).buf c = s.buf c := by
  cases b <;> cases c <;> rfl

end Sys2Proof.Machine
end

