-- ==== Sys2Proof/Laws/Dispatch.lean ====
section
/-! SUPPORT. A state with other dispatch registers: every other field stays, and so does every
selector where no dispatch is in progress. -/

namespace Sys2Proof.Machine

variable (s : State) (ids : List Byte) (idx : Nat)

@[simp] theorem State.withDispatch_dispList : (s.withDispatch ids idx).dispList = ids := rfl
@[simp] theorem State.withDispatch_dispIdx : (s.withDispatch ids idx).dispIdx = idx := rfl
@[simp] theorem State.withDispatch_params : (s.withDispatch ids idx).params = s.params := rfl
@[simp] theorem State.withDispatch_syncState :
    (s.withDispatch ids idx).syncState = s.syncState := rfl
@[simp] theorem State.withDispatch_syncWork : (s.withDispatch ids idx).syncWork = s.syncWork := rfl
@[simp] theorem State.withDispatch_rdState : (s.withDispatch ids idx).rdState = s.rdState := rfl
@[simp] theorem State.withDispatch_rdBuf : (s.withDispatch ids idx).rdBuf = s.rdBuf := rfl
@[simp] theorem State.withDispatch_rdLen : (s.withDispatch ids idx).rdLen = s.rdLen := rfl
@[simp] theorem State.withDispatch_rdPos : (s.withDispatch ids idx).rdPos = s.rdPos := rfl
@[simp] theorem State.withDispatch_rdSleepUntil :
    (s.withDispatch ids idx).rdSleepUntil = s.rdSleepUntil := rfl
@[simp] theorem State.withDispatch_rdFailValid :
    (s.withDispatch ids idx).rdFailValid = s.rdFailValid := rfl
@[simp] theorem State.withDispatch_rdFailCode :
    (s.withDispatch ids idx).rdFailCode = s.rdFailCode := rfl
@[simp] theorem State.withDispatch_recReg : (s.withDispatch ids idx).recReg = s.recReg := rfl
@[simp] theorem State.withDispatch_dispFrame :
    (s.withDispatch ids idx).dispFrame = s.dispFrame := rfl
@[simp] theorem State.withDispatch_buf0 : (s.withDispatch ids idx).buf0 = s.buf0 := rfl
@[simp] theorem State.withDispatch_buf1 : (s.withDispatch ids idx).buf1 = s.buf1 := rfl
@[simp] theorem State.withDispatch_cnt0 : (s.withDispatch ids idx).cnt0 = s.cnt0 := rfl
@[simp] theorem State.withDispatch_cnt1 : (s.withDispatch ids idx).cnt1 = s.cnt1 := rfl
@[simp] theorem State.withDispatch_wsel : (s.withDispatch ids idx).wsel = s.wsel := rfl
@[simp] theorem State.withDispatch_widx : (s.withDispatch ids idx).widx = s.widx := rfl
@[simp] theorem State.withDispatch_need : (s.withDispatch ids idx).need = s.need := rfl
@[simp] theorem State.withDispatch_lock : (s.withDispatch ids idx).lock = s.lock := rfl
@[simp] theorem State.withDispatch_fill : (s.withDispatch ids idx).fill = s.fill := rfl
@[simp] theorem State.withDispatch_txState : (s.withDispatch ids idx).txState = s.txState := rfl
@[simp] theorem State.withDispatch_txWaitUntil :
    (s.withDispatch ids idx).txWaitUntil = s.txWaitUntil := rfl
@[simp] theorem State.withDispatch_txOut : (s.withDispatch ids idx).txOut = s.txOut := rfl
@[simp] theorem State.withDispatch_txFailValid :
    (s.withDispatch ids idx).txFailValid = s.txFailValid := rfl
@[simp] theorem State.withDispatch_txFailCode :
    (s.withDispatch ids idx).txFailCode = s.txFailCode := rfl
@[simp] theorem State.withDispatch_underrunLast :
    (s.withDispatch ids idx).underrunLast = s.underrunLast := rfl
@[simp] theorem State.withDispatch_player : (s.withDispatch ids idx).player = s.player := rfl
@[simp] theorem State.withDispatch_prState : (s.withDispatch ids idx).prState = s.prState := rfl
@[simp] theorem State.withDispatch_pullPlayer :
    (s.withDispatch ids idx).pullPlayer = s.pullPlayer := rfl
@[simp] theorem State.withDispatch_pullMax : (s.withDispatch ids idx).pullMax = s.pullMax := rfl
@[simp] theorem State.withDispatch_ssState : (s.withDispatch ids idx).ssState = s.ssState := rfl
@[simp] theorem State.withDispatch_misuse : (s.withDispatch ids idx).misuse = s.misuse := rfl
@[simp] theorem State.withDispatch_cuBusy : (s.withDispatch ids idx).cuBusy = s.cuBusy := rfl
@[simp] theorem State.withDispatch_faulted : (s.withDispatch ids idx).faulted = s.faulted := rfl
@[simp] theorem State.withDispatch_trace : (s.withDispatch ids idx).trace = s.trace := rfl
@[simp] theorem State.withDispatch_now : (s.withDispatch ids idx).now = s.now := rfl
@[simp] theorem State.withDispatch_turns : (s.withDispatch ids idx).turns = s.turns := rfl
@[simp] theorem State.withDispatch_envRead : (s.withDispatch ids idx).envRead = s.envRead := rfl
@[simp] theorem State.withDispatch_envWrite : (s.withDispatch ids idx).envWrite = s.envWrite := rfl
@[simp] theorem State.withDispatch_envPull : (s.withDispatch ids idx).envPull = s.envPull := rfl
@[simp] theorem State.withDispatch_envAck : (s.withDispatch ids idx).envAck = s.envAck := rfl
@[simp] theorem State.withDispatch_envDevice :
    (s.withDispatch ids idx).envDevice = s.envDevice := rfl
@[simp] theorem State.withDispatch_envOpenDev :
    (s.withDispatch ids idx).envOpenDev = s.envOpenDev := rfl
@[simp] theorem State.withDispatch_clockBack :
    (s.withDispatch ids idx).clockBack = s.clockBack := rfl
@[simp] theorem State.withDispatch_codecWire :
    (s.withDispatch ids idx).codecWire = s.codecWire := rfl
@[simp] theorem State.withDispatch_codecFrame :
    (s.withDispatch ids idx).codecFrame = s.codecFrame := rfl
@[simp] theorem State.withDispatch_nextByte : (s.withDispatch ids idx).nextByte = s.nextByte := rfl
@[simp] theorem State.withDispatch_rxSel : (s.withDispatch ids idx).rxSel = s.rxSel := rfl
@[simp] theorem State.withDispatch_rdRunning : (s.withDispatch ids idx).rdRunning = s.rdRunning := rfl
@[simp] theorem State.withDispatch_txRunning : (s.withDispatch ids idx).txRunning = s.txRunning := rfl

@[simp] theorem State.withDispatch_reservedCode (a : Agent) :
    (s.withDispatch ids idx).reservedCode a = s.reservedCode a := rfl

@[simp] theorem State.withDispatch_popTurn :
    (s.withDispatch ids idx).popTurn = s.popTurn.withDispatch ids idx := rfl

/-- Outside a dispatch no agent's selector depends on the dispatch registers (10_state R30). -/
theorem selector_withDispatch {s : State} (h : s.rdState ≠ RD_DISPATCH) (a : Agent) :
    selector a (s.withDispatch ids idx) = selector a s := by
  have hc : (s.withDispatch ids idx).condition a = s.condition a := by
    cases a
    · show (s.withDispatch ids idx).rdCondition = s.rdCondition
      unfold State.rdCondition
      rw [if_neg (show ¬(s.withDispatch ids idx).rdState = RD_DISPATCH from h), if_neg h]
      rfl
    all_goals rfl
  unfold selector
  rw [hc]
  rfl

end Sys2Proof.Machine
end

