-- ==== Sys2Proof/Laws/Ops.lean ====
section
/-! SUPPORT. What the shared guards can do, said once: a step, a byte step and a command. -/

namespace Sys2Proof.Machine

variable {s t : State}

/-- Everything a step of an agent can do, if it answers a next state: a model fault found, the
step's own effect where it is enabled, or nothing where it is held. -/
theorem takeStep_cases {a : Agent} {sel : BitVec 8} {body : State → State}
    (h : takeStep a sel body s = .next t) :
    s.faulted = false ∧
      ((s.reservedCode a = true ∧ t = s.modelFault) ∨
        (s.reservedCode a = false ∧ selector a s = some sel ∧ t = body s) ∨
        (s.reservedCode a = false ∧ selector a s ≠ some sel ∧ t = s)) := by
  unfold takeStep at h
  split at h
  · cases h
  · rename_i hf
    refine ⟨by simpa using hf, ?_⟩
    split at h
    · rename_i hr; cases h; exact .inl ⟨hr, rfl⟩
    · rename_i hr
      have hr : s.reservedCode a = false := by simpa using hr
      split at h
      · rename_i hs; cases h; exact .inr (.inl ⟨hr, hs, rfl⟩)
      · rename_i hs; cases h; exact .inr (.inr ⟨hr, hs, rfl⟩)

/-- An enabled step has its effect. -/
theorem takeStep_enabled {a : Agent} {sel : BitVec 8} {body : State → State}
    (hf : s.faulted = false) (hr : s.reservedCode a = false) (hs : selector a s = some sel) :
    takeStep a sel body s = .next (body s) := by
  simp [takeStep, hf, hr, hs]

/-- A step that is not enabled is held. -/
theorem takeStep_held {a : Agent} {sel : BitVec 8} {body : State → State}
    (hf : s.faulted = false) (hr : s.reservedCode a = false) (hs : selector a s ≠ some sel) :
    takeStep a sel body s = .next s := by
  simp [takeStep, hf, hr, hs]

/-- A step that finds a reserved code is a model fault. -/
theorem takeStep_reserved {a : Agent} {sel : BitVec 8} {body : State → State}
    (hf : s.faulted = false) (hr : s.reservedCode a = true) :
    takeStep a sel body s = .next s.modelFault := by
  simp [takeStep, hf, hr]

/-- Everything a byte step can do, if it answers a next state. -/
theorem takeByteStep_cases {rx : BitVec 11} {body : State → State}
    (h : takeByteStep rx body s = .next t) :
    s.faulted = false ∧
      ((s.reservedCode .rd = true ∧ t = s.modelFault) ∨
        (s.reservedCode .rd = false ∧ selector .rd s = some 0x08 ∧ s.rxSel = rx ∧ t = body s) ∨
        (s.reservedCode .rd = false ∧ t = s)) := by
  unfold takeByteStep at h
  split at h
  · cases h
  · rename_i hf
    refine ⟨by simpa using hf, ?_⟩
    split at h
    · rename_i hr; cases h; exact .inl ⟨hr, rfl⟩
    · rename_i hr
      have hr : s.reservedCode .rd = false := by simpa using hr
      split at h
      · rename_i hs; cases h; exact .inr (.inl ⟨hr, hs.1, hs.2, rfl⟩)
      · cases h; exact .inr (.inr ⟨hr, rfl⟩)

/-- A byte step whose word the state gives has its effect. -/
theorem takeByteStep_enabled {rx : BitVec 11} {body : State → State} (hf : s.faulted = false)
    (hr : s.reservedCode .rd = false) (hs : selector .rd s = some 0x08) (hx : s.rxSel = rx) :
    takeByteStep rx body s = .next (body s) := by
  simp [takeByteStep, hf, hr, hs, hx]

/-- Everything a command can do, if it answers a next state. -/
theorem takeCommand_cases {legal : Bool} {body : State → State}
    (h : takeCommand legal body s = .next t) :
    s.faulted = false ∧
      ((s.reservedCode .cu = true ∧ t = s.modelFault) ∨
        (s.reservedCode .cu = false ∧ s.cuBusy = true ∧ t = s.answerMisuse) ∨
        (s.reservedCode .cu = false ∧ s.cuBusy = false ∧ legal = true ∧ t = body s) ∨
        (s.reservedCode .cu = false ∧ s.cuBusy = false ∧ legal = false ∧ t = s.answerIllegal)) := by
  unfold takeCommand at h
  split at h
  · cases h
  · rename_i hf
    refine ⟨by simpa using hf, ?_⟩
    split at h
    · rename_i hr; cases h; exact .inl ⟨hr, rfl⟩
    · rename_i hr
      have hr : s.reservedCode .cu = false := by simpa using hr
      split at h
      · rename_i hb; cases h; exact .inr (.inl ⟨hr, hb, rfl⟩)
      · rename_i hb
        have hb : s.cuBusy = false := by simpa using hb
        split at h
        · rename_i hl; cases h; exact .inr (.inr (.inl ⟨hr, hb, hl, rfl⟩))
        · rename_i hl; cases h; exact .inr (.inr (.inr ⟨hr, hb, by simpa using hl, rfl⟩))

/-- A legal command outside an OPEN has its own effect. -/
theorem takeCommand_legal {legal : Bool} {body : State → State} (hf : s.faulted = false)
    (hr : s.reservedCode .cu = false) (hb : s.cuBusy = false) (hl : legal = true) :
    takeCommand legal body s = .next (body s) := by
  simp [takeCommand, hf, hr, hb, hl]

/-- An illegal command outside an OPEN is answered ILLEGAL. -/
theorem takeCommand_illegal {legal : Bool} {body : State → State} (hf : s.faulted = false)
    (hr : s.reservedCode .cu = false) (hb : s.cuBusy = false) (hl : legal = false) :
    takeCommand legal body s = .next s.answerIllegal := by
  simp [takeCommand, hf, hr, hb, hl]

/-- Every command during an OPEN is answered MISUSE. -/
theorem takeCommand_busy {legal : Bool} {body : State → State} (hf : s.faulted = false)
    (hr : s.reservedCode .cu = false) (hb : s.cuBusy = true) :
    takeCommand legal body s = .next s.answerMisuse := by
  simp [takeCommand, hf, hr, hb]

/-- The selector of an agent whose code is legal is its code, its state and the condition. -/
theorem selector_eq_some_iff {a : Agent} {w : BitVec 8} (hr : s.reservedCode a = false) :
    selector a s = some w ↔
      ∃ c, s.condition a = some c ∧ w = agentCode a ++ s.agentState a ++ c := by
  unfold selector
  rw [if_neg (by simp [hr])]
  cases s.condition a with
  | none => simp
  | some c => simp [eq_comm]

/-- A clock that has not gone back does not stop the step that reads it. -/
@[simp] theorem State.readingClock_of_forward {body : State → State} (h : s.clockBack = false) :
    s.readingClock body = body s := by simp [State.readingClock, h]

/-- A step that reads a clock gone back is a model fault. -/
@[simp] theorem State.readingClock_of_back {body : State → State} (h : s.clockBack = true) :
    s.readingClock body = s.modelFault := by simp [State.readingClock, h]

/-! ### What the other shared operations can do -/

/-- The entry of a read failure (60_exceptions R283). -/
@[simp] theorem State.raiseFail_rd (s : State) (code : Byte) :
    s.raiseFail .rd code =
      { s with rdFailValid := true, rdFailCode := code, rdState := RD_FAILED } := rfl

/-- The entry of a write failure (60_exceptions R284). -/
@[simp] theorem State.raiseFail_tx (s : State) (code : Byte) :
    s.raiseFail .tx code =
      { s with txFailValid := true, txFailCode := code, txState := TX_FAILED } := rfl

/-- The rate limit, as the difference 43_transmitter R196 writes. -/
theorem State.underrunDue_iff :
    s.underrunDue = true ↔
      ∀ last, s.underrunLast = some last →
        (s.params.underrunMinIntervalMs : Int) ≤ (s.now : Int) - last := by
  unfold State.underrunDue
  split
  · rename_i h; simp [h]
  · rename_i last h
    simp only [h, Option.some.injEq, forall_eq', decide_eq_true_eq]
    omega

/-- Everything `UnderrunNotify` can do (43_transmitter R196). -/
theorem State.underrunNotify_cases (s : State) :
    (s.player ≠ 0 ∧ s.underrunDue = true ∧
        s.underrunNotify = { s.emit (.underrun s.player) with underrunLast := some s.now }) ∨
      (¬(s.player ≠ 0 ∧ s.underrunDue = true) ∧ s.underrunNotify = s) := by
  unfold State.underrunNotify
  split
  · rename_i h; exact .inl ⟨h.1, h.2, rfl⟩
  · rename_i h; exact .inr ⟨h, rfl⟩

/-- A buffer read inside the buffer gives the slot (20_memory R72). -/
theorem State.bufRead_of_lt {b : Bool} {i : Nat} (h : i < s.params.txBufFrames) :
    s.bufRead b i = some (s.slot b i) := if_pos h

/-- A buffer read outside the buffer is none. -/
theorem State.bufRead_of_le {b : Bool} {i : Nat} (h : s.params.txBufFrames ≤ i) :
    s.bufRead b i = none := if_neg (Nat.not_lt.mpr h)

/-- A buffer write inside the buffer writes the slots in order (20_memory R72). -/
theorem State.bufWriteFrom_of_fits {b : Bool} {i : Nat} {frames : List Frame}
    (h : frames = [] ∨ i + frames.length ≤ s.params.txBufFrames) :
    s.bufWriteFrom b i frames =
      some (s.setBuf b (Memory.writeFrom Config.unwrittenFrame (s.buf b) i frames)) := if_pos h

/-- `rd_running` in the codes of 10_state R25. -/
theorem State.rdRunning_iff :
    s.rdRunning = true ↔
      s.rdState = RD_READ ∨ s.rdState = RD_PROCESS ∨ s.rdState = RD_DISPATCH ∨
        s.rdState = RD_SLEEP := by
  simp only [State.rdRunning, Bool.or_eq_true, decide_eq_true_eq, or_assoc]

/-- `tx_running` in the codes of 10_state R37. -/
theorem State.txRunning_iff :
    s.txRunning = true ↔ TX_PRELOAD ≤ s.txState ∧ s.txState ≤ TX_WRITE_WAIT := by
  simp only [State.txRunning, Bool.and_eq_true, decide_eq_true_eq]

/-- The selector reads nothing of the moves still to come. -/
@[simp] theorem selector_withTurns (a : Agent) (s : State) (ts : List Turn) :
    selector a { s with turns := ts } = selector a s := by cases a <;> rfl

end Sys2Proof.Machine
end

