-- ==== Sys2Proof/Laws/Selector.lean ====
section
/-! SUPPORT. When the engine forms each word of the step decode table (30_encoding R112): one lemma
per row, in the words of the table. Each assumes that the agent's state codes are legal. -/

namespace Sys2Proof.Machine

variable {s : State}

/-- A word of agent RD is formed in its state and under its condition. -/
theorem selector_rd_iff (hr : s.reservedCode .rd = false) (st : BitVec 3) (c : BitVec 2) :
    selector .rd s = some (0#2 ++ st.setWidth 4 ++ c) ↔ s.rdState = st ∧ s.rdCondition = some c := by
  rw [selector_eq_some_iff hr]
  simp only [State.condition, agentCode, State.agentState]
  constructor
  · rintro ⟨c', hc, hw⟩
    have h1 : st = s.rdState := by
      have := congrArg (BitVec.extractLsb' 2 3) hw
      revert this; generalize s.rdState = r; clear hw hc; revert st c c' r; decide
    have h2 : c = c' := by
      have := congrArg (BitVec.extractLsb' 0 2) hw
      revert this; generalize s.rdState = r; clear hw hc h1; revert st c c' r; decide
    exact ⟨h1.symm, h2 ▸ hc⟩
  · rintro ⟨h1, h2⟩
    exact ⟨c, h2, by rw [h1]; rfl⟩

/-- A word of agent TX is formed in its state and under its condition. -/
theorem selector_tx_iff (hr : s.reservedCode .tx = false) (st : BitVec 4) (c : BitVec 2) :
    selector .tx s = some (1#2 ++ st ++ c) ↔ s.txState = st ∧ s.txCondition = some c := by
  rw [selector_eq_some_iff hr]
  simp only [State.condition, agentCode, State.agentState]
  constructor
  · rintro ⟨c', hc, hw⟩
    have h1 : st = s.txState := by
      have := congrArg (BitVec.extractLsb' 2 4) hw
      revert this; generalize s.txState = r; clear hw hc; revert st c c' r; decide
    have h2 : c = c' := by
      have := congrArg (BitVec.extractLsb' 0 2) hw
      revert this; generalize s.txState = r; clear hw hc h1; revert st c c' r; decide
    exact ⟨h1.symm, h2 ▸ hc⟩
  · rintro ⟨h1, h2⟩
    exact ⟨c, h2, by rw [h1]; rfl⟩

/-- A word of agent PR is formed in its state and under its condition. -/
theorem selector_pr_iff (hr : s.reservedCode .pr = false) (st c : BitVec 2) :
    selector .pr s = some (2#2 ++ st.setWidth 4 ++ c) ↔ s.prState = st ∧ s.prCondition = some c := by
  rw [selector_eq_some_iff hr]
  simp only [State.condition, agentCode, State.agentState]
  constructor
  · rintro ⟨c', hc, hw⟩
    have h1 : st = s.prState := by
      have := congrArg (BitVec.extractLsb' 2 2) hw
      revert this; generalize s.prState = r; clear hw hc; revert st c c' r; decide
    have h2 : c = c' := by
      have := congrArg (BitVec.extractLsb' 0 2) hw
      revert this; generalize s.prState = r; clear hw hc h1; revert st c c' r; decide
    exact ⟨h1.symm, h2 ▸ hc⟩
  · rintro ⟨h1, h2⟩
    exact ⟨c, h2, by rw [h1]; rfl⟩

/-- A word of agent CU is formed in its state and under its condition. -/
theorem selector_cu_iff (hr : s.reservedCode .cu = false) (st : BitVec 3) (c : BitVec 2) :
    selector .cu s = some (3#2 ++ st.setWidth 4 ++ c) ↔ s.ssState = st ∧ s.cuCondition = some c := by
  rw [selector_eq_some_iff hr]
  simp only [State.condition, agentCode, State.agentState]
  constructor
  · rintro ⟨c', hc, hw⟩
    have h1 : st = s.ssState := by
      have := congrArg (BitVec.extractLsb' 2 3) hw
      revert this; generalize s.ssState = r; clear hw hc; revert st c c' r; decide
    have h2 : c = c' := by
      have := congrArg (BitVec.extractLsb' 0 2) hw
      revert this; generalize s.ssState = r; clear hw hc h1; revert st c c' r; decide
    exact ⟨h1.symm, h2 ▸ hc⟩
  · rintro ⟨h1, h2⟩
    exact ⟨c, h2, by rw [h1]; rfl⟩

/-! ### Reader -/

theorem selector_rdReadData (hr : s.reservedCode .rd = false) :
    selector .rd s = some 0x04 ↔
      s.rdState = RD_READ ∧ ∃ bytes, s.envRead = some (.data bytes) ∧ bytes ≠ [] := by
  refine (selector_rd_iff hr RD_READ 0).trans (and_congr_right fun h => ?_)
  simp only [State.rdCondition, h, if_true]
  split <;> simp_all

theorem selector_rdReadEmpty (hr : s.reservedCode .rd = false) :
    selector .rd s = some 0x05 ↔ s.rdState = RD_READ ∧ s.envRead = some (.data []) := by
  refine (selector_rd_iff hr RD_READ 1).trans (and_congr_right fun h => ?_)
  simp only [State.rdCondition, h, if_true]
  split <;> simp_all

theorem selector_rdReadFail (hr : s.reservedCode .rd = false) :
    selector .rd s = some 0x06 ↔ s.rdState = RD_READ ∧ ∃ code, s.envRead = some (.error code) := by
  refine (selector_rd_iff hr RD_READ 2).trans (and_congr_right fun h => ?_)
  simp only [State.rdCondition, h, if_true]
  split <;> simp_all

theorem selector_rdByteStep (hr : s.reservedCode .rd = false) :
    selector .rd s = some 0x08 ↔ s.rdState = RD_PROCESS ∧ s.rdPos < s.rdLen := by
  refine (selector_rd_iff hr RD_PROCESS 0).trans (and_congr_right fun h => ?_)
  simp only [State.rdCondition, h, RD_READ, RD_PROCESS]
  split <;> simp_all

theorem selector_rdBufDone (hr : s.reservedCode .rd = false) :
    selector .rd s = some 0x09 ↔ s.rdState = RD_PROCESS ∧ s.rdPos = s.rdLen := by
  refine (selector_rd_iff hr RD_PROCESS 1).trans (and_congr_right fun h => ?_)
  simp only [State.rdCondition, h, RD_READ, RD_PROCESS]
  by_cases h1 : s.rdPos < s.rdLen
  · simp [h1, Nat.ne_of_lt h1]
  · simp [h1]

theorem rdCondition_dispatch (h : s.rdState = RD_DISPATCH) :
    s.rdCondition =
      match s.dispList[s.dispIdx]? with
      | some id => if id = LISTENER then some 1 else some 0
      | none => if s.dispIdx = s.dispList.length then some 2 else none := by
  exact (if_neg (by rw [h]; decide)).trans ((if_neg (by rw [h]; decide)).trans (if_pos h))

theorem selector_rdDispatchExt (hr : s.reservedCode .rd = false) :
    selector .rd s = some 0x0C ↔
      s.rdState = RD_DISPATCH ∧ ∃ id, s.dispList[s.dispIdx]? = some id ∧ id ≠ LISTENER := by
  refine (selector_rd_iff hr RD_DISPATCH 0).trans (and_congr_right fun h => ?_)
  rw [rdCondition_dispatch h]
  rcases s.dispList[s.dispIdx]? with _ | id
  · by_cases h1 : s.dispIdx = s.dispList.length <;> simp [h1]
  · by_cases h1 : id = LISTENER <;> simp [h1]

theorem selector_rdFeedback (hr : s.reservedCode .rd = false) :
    selector .rd s = some 0x0D ↔
      s.rdState = RD_DISPATCH ∧ s.dispList[s.dispIdx]? = some LISTENER := by
  refine (selector_rd_iff hr RD_DISPATCH 1).trans (and_congr_right fun h => ?_)
  rw [rdCondition_dispatch h]
  rcases s.dispList[s.dispIdx]? with _ | id
  · by_cases h1 : s.dispIdx = s.dispList.length <;> simp [h1]
  · by_cases h1 : id = LISTENER <;> simp [h1]

theorem selector_rdDispatchEnd (hr : s.reservedCode .rd = false) :
    selector .rd s = some 0x0E ↔ s.rdState = RD_DISPATCH ∧ s.dispIdx = s.dispList.length := by
  refine (selector_rd_iff hr RD_DISPATCH 2).trans (and_congr_right fun h => ?_)
  rw [rdCondition_dispatch h]
  by_cases h1 : s.dispIdx = s.dispList.length
  · simp [h1]
  · rcases s.dispList[s.dispIdx]? with _ | id
    · simp [h1]
    · by_cases h2 : id = LISTENER <;> simp [h1, h2]

theorem selector_rdSleepDone (hr : s.reservedCode .rd = false) :
    selector .rd s = some 0x10 ↔
      s.rdState = RD_SLEEP ∧ (s.clockBack = true ∨ s.rdSleepUntil ≤ s.now) := by
  refine (selector_rd_iff hr RD_SLEEP 0).trans (and_congr_right fun h => ?_)
  cases hb : s.clockBack <;>
    simp [State.rdCondition, h, hb, RD_READ, RD_PROCESS, RD_DISPATCH, RD_SLEEP, State.deadlinePassed]

/-! ### Transmitter -/

theorem selector_txPreload (hr : s.reservedCode .tx = false) :
    selector .tx s = some 0x44 ↔ s.txState = TX_PRELOAD ∧ s.need = false := by
  refine (selector_tx_iff hr TX_PRELOAD 0).trans (and_congr_right fun h => ?_)
  cases hn : s.need <;> simp [State.txCondition, h, hn]

theorem selector_txSwapOk (hr : s.reservedCode .tx = false) :
    selector .tx s = some 0x48 ↔ s.txState = TX_SWAP ∧ s.lock = false ∧ 0 < s.cnt s.client := by
  refine (selector_tx_iff hr TX_SWAP 0).trans (and_congr_right fun h => ?_)
  cases hl : s.lock <;> simp [State.txCondition, h, hl, TX_PRELOAD, TX_SWAP]

theorem selector_txSwapUnderrun (hr : s.reservedCode .tx = false) :
    selector .tx s = some 0x49 ↔ s.txState = TX_SWAP ∧ s.lock = false ∧ s.cnt s.client = 0 := by
  refine (selector_tx_iff hr TX_SWAP 1).trans (and_congr_right fun h => ?_)
  cases hl : s.lock <;> simp [State.txCondition, h, hl, TX_PRELOAD, TX_SWAP]

theorem selector_txUnderrunRetry (hr : s.reservedCode .tx = false) :
    selector .tx s = some 0x4C ↔
      s.txState = TX_UNDERRUN_WAIT ∧ (s.clockBack = true ∨ s.txWaitUntil ≤ s.now) := by
  refine (selector_tx_iff hr TX_UNDERRUN_WAIT 0).trans (and_congr_right fun h => ?_)
  cases hb : s.clockBack <;>
    simp [State.txCondition, h, hb, TX_PRELOAD, TX_SWAP, TX_UNDERRUN_WAIT, State.deadlinePassed]

theorem selector_txDrainEnd (hr : s.reservedCode .tx = false) :
    selector .tx s = some 0x50 ↔ s.txState = TX_NEXT ∧ s.widx = s.cnt s.wsel := by
  refine (selector_tx_iff hr TX_NEXT 0).trans (and_congr_right fun h => ?_)
  simp only [State.txCondition, h, TX_PRELOAD, TX_SWAP, TX_UNDERRUN_WAIT, TX_NEXT]
  by_cases h1 : s.widx = s.cnt s.wsel
  · simp [h1]
  · simp only [h1, if_false, iff_false]
    by_cases h2 : s.widx < s.cnt s.wsel <;> by_cases h3 : s.widx = s.cnt s.wsel / 2 <;> simp [h2, h3]

theorem selector_txHalfPoint (hr : s.reservedCode .tx = false) :
    selector .tx s = some 0x51 ↔
      s.txState = TX_NEXT ∧ s.widx < s.cnt s.wsel ∧ s.widx = s.cnt s.wsel / 2 := by
  refine (selector_tx_iff hr TX_NEXT 1).trans (and_congr_right fun h => ?_)
  simp only [State.txCondition, h, TX_PRELOAD, TX_SWAP, TX_UNDERRUN_WAIT, TX_NEXT]
  by_cases h1 : s.widx = s.cnt s.wsel
  · simp [h1]
  · by_cases h2 : s.widx < s.cnt s.wsel <;> by_cases h3 : s.widx = s.cnt s.wsel / 2 <;>
      simp_all

theorem selector_txNextFrame (hr : s.reservedCode .tx = false) :
    selector .tx s = some 0x52 ↔
      s.txState = TX_NEXT ∧ s.widx < s.cnt s.wsel ∧ s.widx ≠ s.cnt s.wsel / 2 := by
  refine (selector_tx_iff hr TX_NEXT 2).trans (and_congr_right fun h => ?_)
  simp only [State.txCondition, h, TX_PRELOAD, TX_SWAP, TX_UNDERRUN_WAIT, TX_NEXT]
  by_cases h1 : s.widx = s.cnt s.wsel
  · simp [h1]
  · by_cases h2 : s.widx < s.cnt s.wsel <;> by_cases h3 : s.widx = s.cnt s.wsel / 2 <;>
      simp_all

theorem selector_txHalfNeed (hr : s.reservedCode .tx = false) :
    selector .tx s = some 0x54 ↔ s.txState = TX_HALF_NEED ∧ s.need = false := by
  refine (selector_tx_iff hr TX_HALF_NEED 0).trans (and_congr_right fun h => ?_)
  cases hn : s.need <;>
    simp [State.txCondition, h, hn, TX_PRELOAD, TX_SWAP, TX_UNDERRUN_WAIT, TX_NEXT, TX_HALF_NEED]

theorem selector_txThrottlePass (hr : s.reservedCode .tx = false) :
    selector .tx s = some 0x58 ↔ s.txState = TX_THROTTLE ∧ s.fill ≤ s.params.hwm := by
  refine (selector_tx_iff hr TX_THROTTLE 0).trans (and_congr_right fun h => ?_)
  simp [State.txCondition, h, TX_PRELOAD, TX_SWAP, TX_UNDERRUN_WAIT, TX_NEXT, TX_HALF_NEED,
    TX_THROTTLE]

theorem selector_txThrottleHold (hr : s.reservedCode .tx = false) :
    selector .tx s = some 0x59 ↔ s.txState = TX_THROTTLE ∧ s.params.hwm < s.fill := by
  refine (selector_tx_iff hr TX_THROTTLE 1).trans (and_congr_right fun h => ?_)
  simp only [State.txCondition, h, TX_PRELOAD, TX_SWAP, TX_UNDERRUN_WAIT, TX_NEXT, TX_HALF_NEED,
    TX_THROTTLE]
  by_cases hf : s.fill ≤ s.params.hwm
  · simp [hf, BitVec.not_lt.mpr hf]
  · simp [hf, BitVec.not_le.mp hf]

theorem selector_txThrottleRecheck (hr : s.reservedCode .tx = false) :
    selector .tx s = some 0x5C ↔
      s.txState = TX_THROTTLE_WAIT ∧ (s.clockBack = true ∨ s.txWaitUntil ≤ s.now) := by
  refine (selector_tx_iff hr TX_THROTTLE_WAIT 0).trans (and_congr_right fun h => ?_)
  cases hb : s.clockBack <;>
    simp [State.txCondition, h, hb, TX_PRELOAD, TX_SWAP, TX_UNDERRUN_WAIT, TX_NEXT, TX_HALF_NEED,
      TX_THROTTLE, TX_THROTTLE_WAIT, State.deadlinePassed]

theorem selector_txWriteOk (hr : s.reservedCode .tx = false) :
    selector .tx s = some 0x60 ↔ s.txState = TX_WRITE_WAIT ∧ s.envWrite = some .ok := by
  refine (selector_tx_iff hr TX_WRITE_WAIT 0).trans (and_congr_right fun h => ?_)
  simp only [State.txCondition, h, TX_PRELOAD, TX_SWAP, TX_UNDERRUN_WAIT, TX_NEXT, TX_HALF_NEED,
    TX_THROTTLE, TX_THROTTLE_WAIT, TX_WRITE_WAIT]
  rcases s.envWrite with _ | (_ | _) <;> simp

theorem selector_txWriteFail (hr : s.reservedCode .tx = false) :
    selector .tx s = some 0x61 ↔
      s.txState = TX_WRITE_WAIT ∧ ∃ code, s.envWrite = some (.error code) := by
  refine (selector_tx_iff hr TX_WRITE_WAIT 1).trans (and_congr_right fun h => ?_)
  simp only [State.txCondition, h, TX_PRELOAD, TX_SWAP, TX_UNDERRUN_WAIT, TX_NEXT, TX_HALF_NEED,
    TX_THROTTLE, TX_THROTTLE_WAIT, TX_WRITE_WAIT]
  rcases s.envWrite with _ | (_ | _) <;> simp

/-! ### Producer -/

theorem selector_prPullIssue (hr : s.reservedCode .pr = false) :
    selector .pr s = some 0x84 ↔ s.prState = PR_WAIT_NEED ∧ s.need = true ∧ s.player ≠ 0 := by
  refine (selector_pr_iff hr PR_WAIT_NEED 0).trans (and_congr_right fun h => ?_)
  cases hn : s.need <;> by_cases hp : s.player = 0 <;> simp [State.prCondition, h, hn, hp]

theorem selector_prPullNone (hr : s.reservedCode .pr = false) :
    selector .pr s = some 0x85 ↔ s.prState = PR_WAIT_NEED ∧ s.need = true ∧ s.player = 0 := by
  refine (selector_pr_iff hr PR_WAIT_NEED 1).trans (and_congr_right fun h => ?_)
  cases hn : s.need <;> by_cases hp : s.player = 0 <;> simp [State.prCondition, h, hn, hp]

theorem selector_prPullDone (hr : s.reservedCode .pr = false) :
    selector .pr s = some 0x88 ↔ s.prState = PR_PULL_WAIT ∧ s.envPull.isSome = true := by
  refine (selector_pr_iff hr PR_PULL_WAIT 0).trans (and_congr_right fun h => ?_)
  cases hp : s.envPull <;> simp [State.prCondition, h, hp, PR_WAIT_NEED, PR_PULL_WAIT]

/-! ### Control unit -/

theorem selector_cuDeviceOpenOk (hr : s.reservedCode .cu = false) :
    selector .cu s = some 0xC4 ↔ s.ssState = SS_OPENING ∧ s.envDevice = some .ok := by
  refine (selector_cu_iff hr SS_OPENING 0).trans (and_congr_right fun h => ?_)
  simp only [State.cuCondition, h, if_true]
  rcases s.envDevice with _ | (_ | _) <;> simp

theorem selector_cuDeviceOpenFail (hr : s.reservedCode .cu = false) :
    selector .cu s = some 0xC5 ↔ s.ssState = SS_OPENING ∧ s.envDevice = some .error := by
  refine (selector_cu_iff hr SS_OPENING 1).trans (and_congr_right fun h => ?_)
  simp only [State.cuCondition, h, if_true]
  rcases s.envDevice with _ | (_ | _) <;> simp

theorem selector_cuStartRd (hr : s.reservedCode .cu = false) :
    selector .cu s = some 0xC8 ↔ s.ssState = SS_START_RD := by
  refine (selector_cu_iff hr SS_START_RD 0).trans (and_iff_left_of_imp fun h => ?_)
  simp [State.cuCondition, h, SS_OPENING, SS_START_RD]

theorem selector_cuStartTx (hr : s.reservedCode .cu = false) :
    selector .cu s = some 0xCC ↔ s.ssState = SS_START_TX := by
  refine (selector_cu_iff hr SS_START_TX 0).trans (and_iff_left_of_imp fun h => ?_)
  simp [State.cuCondition, h, SS_OPENING, SS_START_RD, SS_START_TX]

end Sys2Proof.Machine
end

