-- ==== Sys2Proof/Laws/Effect.lean ====
section
/-! SUPPORT. Everything an instruction can do to the state, said once for all of them: `Effect i s t`
has one constructor per effect, with the conditions under which it is had. That `exec` does nothing
else is `exec_cases` of Laws/EffectCases.lean. -/

namespace Sys2Proof.Machine

/-! ### Byte steps -/

/-- The `rx_sel` word's parts (30_encoding R106). -/
theorem rxSel_eq_iff {s : State} {row : BitVec 4} {data : BitVec 7} :
    s.rxSel = row ++ data ↔
      s.syncState = row.extractLsb' 1 3 ∧ s.nextByte = row.extractLsb' 0 1 ++ data := by
  rw [State.rxSel, ← BitVec.toNat_inj, ← BitVec.toNat_inj, Laws.byte_eq_class_data,
    Laws.toNat_concat_3_8, Laws.toNat_concat_4_7, Laws.toNat_slice, Laws.toNat_slice]
  have := s.syncState.isLt
  have := s.nextByte.isLt
  have := row.isLt
  have := data.isLt
  omega

/-- A byte of class 1 has bit 7 set. -/
theorem statusByte_msb (data : BitVec 7) : (statusByte data).msb = true := by
  have h := Laws.toNat_concat_1_7 1#1 data
  rw [Laws.msb_byte, decide_eq_true_eq]
  have : (1#1).toNat = 1 := rfl
  rw [statusByte]
  omega

/-- A byte of class 0 has bit 7 clear. -/
theorem payloadByte_msb (data : BitVec 7) : (payloadByte data).msb = false := by
  have h := Laws.toNat_concat_1_7 0#1 data
  rw [Laws.msb_byte, decide_eq_false_iff_not]
  have := data.isLt
  have : (0#1).toNat = 0 := rfl
  rw [payloadByte]
  omega

/-- Everything a byte step can do (42_synchronizer R157), where `sync_state` is legal. -/
theorem byteEffect_cases (s : State) :
    (s.nextByte.msb = true ∧ s.syncState = UNSYNC ∧ s.byteEffect = s.acceptStatus) ∨
      (s.nextByte.msb = true ∧ s.syncState ≠ UNSYNC ∧ s.byteEffect = s.discardByte) ∨
      (s.nextByte.msb = false ∧ s.syncState = UNSYNC ∧ s.byteEffect = s.discardByte) ∨
      (s.nextByte.msb = false ∧ s.syncState ≠ UNSYNC ∧ s.syncState ≠ P5_READ ∧
        s.byteEffect = s.acceptPayload) ∨
      (s.nextByte.msb = false ∧ s.syncState = P5_READ ∧ s.byteEffect = s.completeFrame) := by
  unfold State.byteEffect
  cases s.nextByte.msb <;> by_cases h0 : s.syncState = UNSYNC <;>
    by_cases h6 : s.syncState = P5_READ <;> simp_all [UNSYNC, P5_READ]

/-! ### Effects -/

/-- `Effect i s t`: instruction `i`, taken in `s`, has had its effect and left `t`. A step that is
held leaves the state as it is and has none. -/
inductive Effect : Instr → State → State → Prop where
  /-- A model fault was found (60_exceptions R288). -/
  | fault {i : Instr} {s : State} : Effect i s s.modelFault
  | codecEncode {f : Frame} {s : State} :
    Effect (.codecEncode f) s { s with codecWire := encodeFrame f }
  | codecDecode {w : WireFrame} {s : State} :
    Effect (.codecDecode w) s { s with codecFrame := decodeFrame s.params.statusKeepMarker w }
  /-- A byte step, taken as the Reader's step or as the row its word selects. -/
  | byteStep {i : Instr} {s : State} (row : i = .rdByteStep ∨ encode i = .rxSel s.rxSel)
    (legal : s.reservedCode .rd = false) (at_ : s.rdState = RD_PROCESS) (more : s.rdPos < s.rdLen) :
    Effect i s s.byteEffect
  | readData {s : State} {bytes : List Byte} (at_ : s.rdState = RD_READ)
    (answer : s.envRead = some (.data bytes)) (some_ : bytes ≠ [])
    (fits : bytes.length ≤ s.params.rdBufBytes) :
    Effect .rdReadData s
      { s with
        rdBuf := Memory.writeFrom Config.unwrittenByte s.rdBuf 0 bytes
        rdLen := bytes.length
        rdPos := 0
        envRead := none
        rdState := RD_PROCESS }
  | readEmpty {s : State} (at_ : s.rdState = RD_READ) (answer : s.envRead = some (.data []))
    (clock : s.clockBack = false) :
    Effect .rdReadEmpty s
      { s with
        rdSleepUntil := s.now + s.params.rdIdleSleepMs
        envRead := none
        rdState := RD_SLEEP }
  | readFail {s : State} {code : Byte} (at_ : s.rdState = RD_READ)
    (answer : s.envRead = some (.error code)) :
    Effect .rdReadFail s ({ s with envRead := none }.raiseFail .rd code)
  | bufDone {s : State} (at_ : s.rdState = RD_PROCESS) (used : s.rdPos = s.rdLen) :
    Effect .rdBufDone s (s.gotoRd RD_READ)
  | dispatchExt {s : State} {id : Byte} (at_ : s.rdState = RD_DISPATCH)
    (entry : s.dispList[s.dispIdx]? = some id) (ext : id ≠ LISTENER)
    (accepted : s.envAck = some id) :
    Effect .rdDispatchExt s
      { s.emit (.recDeliver id s.dispFrame) with dispIdx := s.dispIdx + 1, envAck := none }
  | feedback {s : State} (at_ : s.rdState = RD_DISPATCH)
    (entry : s.dispList[s.dispIdx]? = some LISTENER) :
    Effect .rdFeedback s
      { s with fill := s.dispFrame.status.extractLsb' 0 6, dispIdx := s.dispIdx + 1 }
  | dispatchEnd {s : State} (at_ : s.rdState = RD_DISPATCH)
    (all : s.dispIdx = s.dispList.length) : Effect .rdDispatchEnd s (s.gotoRd RD_PROCESS)
  | sleepDone {s : State} (at_ : s.rdState = RD_SLEEP) (clock : s.clockBack = false)
    (due : s.rdSleepUntil ≤ s.now) : Effect .rdSleepDone s (s.gotoRd RD_READ)
  | preload {s : State} (at_ : s.txState = TX_PRELOAD) (free : s.need = false) :
    Effect .txPreload s (s.raiseNeed.gotoTx TX_SWAP)
  | swapOk {s : State} (at_ : s.txState = TX_SWAP) (unlocked : s.lock = false)
    (ready : 0 < s.cnt s.client) :
    Effect .txSwapOk s { s with wsel := !s.wsel, widx := 0, txState := TX_NEXT }
  | swapUnderrun {s : State} (at_ : s.txState = TX_SWAP) (unlocked : s.lock = false)
    (empty : s.cnt s.client = 0) (clock : s.clockBack = false) :
    Effect .txSwapUnderrun s
      { s.underrunNotify with
        txWaitUntil := s.now + s.params.underrunRetryMs
        txState := TX_UNDERRUN_WAIT }
  | underrunRetry {s : State} (at_ : s.txState = TX_UNDERRUN_WAIT) (clock : s.clockBack = false)
    (due : s.txWaitUntil ≤ s.now) :
    Effect .txUnderrunRetry s
      ((if s.need = false ∧ s.cnt s.client = 0 then s.raiseNeed else s).gotoTx TX_SWAP)
  | drainEnd {s : State} (at_ : s.txState = TX_NEXT) (drained : s.widx = s.cnt s.wsel) :
    Effect .txDrainEnd s { s.setCnt s.wsel 0 with widx := 0, txState := TX_SWAP }
  | halfPoint {s : State} (at_ : s.txState = TX_NEXT) (more : s.widx < s.cnt s.wsel)
    (half : s.widx = s.cnt s.wsel / 2) : Effect .txHalfPoint s (s.gotoTx TX_HALF_NEED)
  | nextFrame {s : State} (at_ : s.txState = TX_NEXT) (more : s.widx < s.cnt s.wsel)
    (half : s.widx ≠ s.cnt s.wsel / 2) : Effect .txNextFrame s (s.gotoTx TX_THROTTLE)
  | halfNeed {s : State} (at_ : s.txState = TX_HALF_NEED) (free : s.need = false) :
    Effect .txHalfNeed s (s.raiseNeed.gotoTx TX_THROTTLE)
  | throttlePass {s : State} (at_ : s.txState = TX_THROTTLE) (mark : s.fill ≤ s.params.hwm)
    (slot : s.widx < s.params.txBufFrames) :
    Effect .txThrottlePass s
      { s.emit (.txWrite (encodeFrame (s.slot s.wsel s.widx))) with
        txOut := encodeFrame (s.slot s.wsel s.widx)
        txState := TX_WRITE_WAIT }
  | throttleHold {s : State} (at_ : s.txState = TX_THROTTLE) (mark : s.params.hwm < s.fill)
    (clock : s.clockBack = false) :
    Effect .txThrottleHold s
      { s with txWaitUntil := s.now + s.params.throttlePollMs, txState := TX_THROTTLE_WAIT }
  | throttleRecheck {s : State} (at_ : s.txState = TX_THROTTLE_WAIT) (clock : s.clockBack = false)
    (due : s.txWaitUntil ≤ s.now) : Effect .txThrottleRecheck s (s.gotoTx TX_THROTTLE)
  | writeOk {s : State} (at_ : s.txState = TX_WRITE_WAIT) (answer : s.envWrite = some .ok) :
    Effect .txWriteOk s { s with widx := s.widx + 1, envWrite := none, txState := TX_NEXT }
  | writeFail {s : State} {code : Byte} (at_ : s.txState = TX_WRITE_WAIT)
    (answer : s.envWrite = some (.error code)) :
    Effect .txWriteFail s ({ s with envWrite := none }.raiseFail .tx code)
  | pullIssue {s : State} (at_ : s.prState = PR_WAIT_NEED) (raised : s.need = true)
    (attached : s.player ≠ 0) :
    Effect .prPullIssue s
      { s.emit (.pullReq s.player (s.params.txBufFrames - s.cnt s.client)) with
        pullPlayer := s.player
        pullMax := s.params.txBufFrames - s.cnt s.client
        lock := true
        prState := PR_PULL_WAIT }
  | pullNone {s : State} (at_ : s.prState = PR_WAIT_NEED) (raised : s.need = true)
    (none_ : s.player = 0) : Effect .prPullNone s { s with need := false }
  | pullDone {s : State} {frames : List Frame} (at_ : s.prState = PR_PULL_WAIT)
    (answer : s.envPull = some frames) (asked : frames.length ≤ s.pullMax)
    (fits : frames = [] ∨ s.cnt s.client + frames.length ≤ s.params.txBufFrames) :
    Effect .prPullDone s
      { (s.setBuf s.client
            (Memory.writeFrom Config.unwrittenFrame (s.buf s.client) (s.cnt s.client)
              frames)).setCnt s.client (s.cnt s.client + frames.length) with
        lock := false
        need := false
        envPull := none
        prState := PR_WAIT_NEED }
  | deviceOpenOk {s : State} (at_ : s.ssState = SS_OPENING) (answer : s.envDevice = some .ok) :
    Effect .cuDeviceOpenOk s { s with envDevice := none, ssState := SS_START_RD }
  | deviceOpenFail {s : State} (at_ : s.ssState = SS_OPENING)
    (answer : s.envDevice = some .error) :
    Effect .cuDeviceOpenFail s
      ({ s with ssState := SS_CLOSED, cuBusy := false, envDevice := none }.respond RESP_OPEN_FAILED 0)
  | startRd {s : State} (at_ : s.ssState = SS_START_RD) :
    Effect .cuStartRd s (s.rdStart.gotoSs SS_START_TX)
  | startTx {s : State} (at_ : s.ssState = SS_START_TX) :
    Effect .cuStartTx s ({ s.txStart with ssState := SS_OPEN, cuBusy := false }.respond RESP_OK 0)
  /-- A command answered MISUSE with no other effect (44_control R255). -/
  | misuse {i : Instr} {s : State} (command : ∃ w, encode i = .ctlCmd w) : Effect i s s.answerMisuse
  /-- A command answered ILLEGAL (44_control R256). -/
  | illegal {i : Instr} {s : State} (command : ∃ w, encode i = .ctlCmd w) :
    Effect i s s.answerIllegal
  /-- A command that only reads, or that finds nothing to do: a response OK. -/
  | answered {i : Instr} {s : State} {value : BitVec 32} (command : ∃ w, encode i = .ctlCmd w)
    (free : s.cuBusy = false) : Effect i s (s.respond RESP_OK value)
  | openSession {s : State} {dev : Byte} (free : s.cuBusy = false) (at_ : s.ssState = SS_CLOSED) :
    Effect (.openSession dev) s
      { s with cuBusy := true, envOpenDev := some dev, ssState := SS_OPENING }
  /-- A CLOSE that closes the Transmitter and finds the Reader running (44_control R247). -/
  | closePart {s : State} (free : s.cuBusy = false) (session : s.ssState ≠ SS_CLOSED)
    (tx : s.txState ≠ TX_STOPPED) (ended : s.txRunning = false) (pull : s.prState ≠ PR_PULL_WAIT)
    (rd : s.rdRunning = true) : Effect (.closeSession 0) s s.txClose.answerMisuse
  /-- A CLOSE that finds both loops ended, `txClosed` and `rdClosed` what it makes of them. -/
  | closeBoth {s txClosed rdClosed : State} (free : s.cuBusy = false)
    (session : s.ssState ≠ SS_CLOSED)
    (tx : s.txState = TX_STOPPED ∧ txClosed = s ∨
      s.txState ≠ TX_STOPPED ∧ s.txRunning = false ∧ s.prState ≠ PR_PULL_WAIT ∧
        txClosed = s.txClose)
    (ended : s.rdRunning = false)
    (rd : s.rdState = RD_STOPPED ∧ rdClosed = txClosed ∨
      s.rdState ≠ RD_STOPPED ∧ rdClosed = txClosed.rdClose) :
    Effect (.closeSession 0) s ((rdClosed.gotoSs SS_CLOSED).respond RESP_OK 0)
  | attachRec {s : State} {id : Byte} (free : s.cuBusy = false) (ext : id ≠ 0)
    (new : id ∉ s.recReg) (room : s.externals ≠ s.params.maxRecorders) :
    Effect (.attachRec id) s ({ s with recReg := s.recReg ++ [id] }.respond RESP_OK 0)
  | attachRecFull {s : State} {id : Byte} (free : s.cuBusy = false) :
    Effect (.attachRec id) s (s.respond RESP_FULL 0)
  | detachRec {s : State} {id : Byte} (free : s.cuBusy = false) (ext : id ≠ 0) :
    Effect (.detachRec id) s ({ s with recReg := s.recReg.filter (· ≠ id) }.respond RESP_OK 0)
  | attachPlayer {s : State} {id : Byte} (free : s.cuBusy = false) (ext : id ≠ 0)
    (none_ : s.player = 0) :
    Effect (.attachPlayer id) s ({ s with player := id }.respond RESP_OK 0)
  | detachPlayer {s : State} {id : Byte} (free : s.cuBusy = false) (ext : id ≠ 0)
    (attached : s.player = id) :
    Effect (.detachPlayer id) s ({ s with player := 0 }.respond RESP_OK 0)

variable {s t : State}

/-- A held, faulted or enabled step, as an effect. -/
theorem takeStep_effect {i : Instr} {a : Agent} {sel : BitVec 8} {body : State → State}
    (h : takeStep a sel body s = .next t)
    (enabled : s.reservedCode a = false → selector a s = some sel → body s = s ∨ Effect i s (body s)) :
    t = s ∨ Effect i s t := by
  obtain ⟨-, ⟨-, rfl⟩ | ⟨hr, hs, rfl⟩ | ⟨-, -, rfl⟩⟩ := takeStep_cases h
  · exact .inr .fault
  · exact enabled hr hs
  · exact .inl rfl

/-- A byte step's row, as an effect. -/
theorem takeByteStep_effect {i : Instr} {row : BitVec 4} {data : BitVec 7} {body : State → State}
    (he : encode i = .rxSel (row ++ data))
    (hb : s.syncState = row.extractLsb' 1 3 → s.nextByte = row.extractLsb' 0 1 ++ data →
      body s = s.byteEffect)
    (h : takeByteStep (row ++ data) body s = .next t) : t = s ∨ Effect i s t := by
  obtain ⟨-, ⟨-, rfl⟩ | ⟨hr, hs, hx, rfl⟩ | ⟨-, rfl⟩⟩ := takeByteStep_cases h
  · exact .inr .fault
  · obtain ⟨h1, h2⟩ := rxSel_eq_iff.1 hx
    obtain ⟨h3, h4⟩ := (selector_rdByteStep hr).1 hs
    rw [hb h1 h2]
    exact .inr (.byteStep (.inr (by rw [he, hx])) hr h3 h4)
  · exact .inl rfl

/-- A command, as an effect. -/
theorem takeCommand_effect {i : Instr} {legal : Bool} {body : State → State}
    (hc : ∃ w, encode i = .ctlCmd w) (h : takeCommand legal body s = .next t)
    (taken : s.cuBusy = false → legal = true → Effect i s (body s)) : t = s ∨ Effect i s t := by
  obtain ⟨-, ⟨-, rfl⟩ | ⟨-, -, rfl⟩ | ⟨-, hb, hl, rfl⟩ | ⟨-, -, -, rfl⟩⟩ := takeCommand_cases h
  · exact .inr .fault
  · exact .inr (.misuse hc)
  · exact .inr (taken hb hl)
  · exact .inr (.illegal hc)

theorem acceptStatus_eq {data : BitVec 7} (h1 : s.syncState = UNSYNC)
    (h2 : s.nextByte = statusByte data) : s.acceptStatus = s.byteEffect := by
  rw [State.byteEffect, h2, statusByte_msb, if_pos rfl, if_pos h1]

theorem discardHi_eq {data : BitVec 7} (h1 : s.syncState ≠ UNSYNC)
    (h2 : s.nextByte = statusByte data) : s.discardByte = s.byteEffect := by
  rw [State.byteEffect, h2, statusByte_msb, if_pos rfl, if_neg h1]

theorem discardLo_eq {data : BitVec 7} (h1 : s.syncState = UNSYNC)
    (h2 : s.nextByte = payloadByte data) : s.discardByte = s.byteEffect := by
  rw [State.byteEffect, h2, payloadByte_msb, if_neg (by decide), if_pos h1]

theorem acceptPayload_eq {data : BitVec 7} (h1 : s.syncState ≠ UNSYNC) (h3 : s.syncState ≠ P5_READ)
    (h2 : s.nextByte = payloadByte data) : s.acceptPayload = s.byteEffect := by
  rw [State.byteEffect, h2, payloadByte_msb, if_neg (by decide), if_neg h1, if_neg h3]

theorem completeFrame_eq {data : BitVec 7} (h1 : s.syncState = P5_READ)
    (h2 : s.nextByte = payloadByte data) : s.completeFrame = s.byteEffect := by
  rw [State.byteEffect, h2, payloadByte_msb, if_neg (by decide), if_neg (by rw [h1]; decide),
    if_pos h1]

/-- A step that reads the clock: a model fault, or its body on a clock that has not gone back. -/
theorem readingClock_effect {i : Instr} {body : State → State}
    (h : s.clockBack = false → Effect i s (body s)) : Effect i s (s.readingClock body) := by
  cases hb : s.clockBack with
  | true => rw [State.readingClock_of_back hb]; exact .fault
  | false => rw [State.readingClock_of_forward hb]; exact h hb

/-- The clock a deadline is compared with has not gone back, or the step is a model fault. -/
theorem due_of_forward {deadline : Nat} (h : s.clockBack = true ∨ deadline ≤ s.now)
    (hb : s.clockBack = false) : deadline ≤ s.now := by simpa [hb] using h

end Sys2Proof.Machine
end

