-- ==== Sys2Proof/Laws/EffectCases.lean ====
section
/-! SUPPORT. Every instruction has an effect of `Effect` or none: one lemma per agent's steps, and
`exec_cases` for all of them. -/

namespace Sys2Proof.Machine

variable {s t : State}

/-- Everything the Reader's steps can do, if they answer a next state. -/
theorem exec_rd_cases {i : Instr}
    (hi : i ∈ [.rdReadData, .rdReadEmpty, .rdReadFail, .rdByteStep, .rdBufDone, .rdDispatchExt,
      .rdFeedback, .rdDispatchEnd, .rdSleepDone])
    (h : exec i s = .next t) : t = s ∨ Effect i s t := by
  simp only [List.mem_cons, List.not_mem_nil, or_false] at hi
  rcases hi with rfl | rfl | rfl | rfl | rfl | rfl | rfl | rfl | rfl
  · simp only [exec, execRdReadData] at h
    refine takeStep_effect h fun hr hs => .inr ?_
    obtain ⟨h1, bytes, h2, h3⟩ := (selector_rdReadData hr).1 hs
    simp only [h2]
    split
    · exact .fault
    · exact .readData h1 h2 h3 (Nat.le_of_not_lt ‹_›)
  · simp only [exec, execRdReadEmpty] at h
    refine takeStep_effect h fun hr hs => .inr (readingClock_effect fun hb => ?_)
    obtain ⟨h1, h2⟩ := (selector_rdReadEmpty hr).1 hs
    exact .readEmpty h1 h2 hb
  · simp only [exec, execRdReadFail] at h
    refine takeStep_effect h fun hr hs => .inr ?_
    obtain ⟨h1, code, h2⟩ := (selector_rdReadFail hr).1 hs
    simp only [h2]
    exact .readFail h1 h2
  · simp only [exec, execRdByteStep] at h
    refine takeStep_effect h fun hr hs => .inr ?_
    obtain ⟨h1, h2⟩ := (selector_rdByteStep hr).1 hs
    exact .byteStep (.inl rfl) hr h1 h2
  · simp only [exec, execRdBufDone] at h
    refine takeStep_effect h fun hr hs => .inr ?_
    obtain ⟨h1, h2⟩ := (selector_rdBufDone hr).1 hs
    exact .bufDone h1 h2
  · simp only [exec, execRdDispatchExt] at h
    refine takeStep_effect h fun hr hs => ?_
    obtain ⟨h1, id, h2, h3⟩ := (selector_rdDispatchExt hr).1 hs
    simp only [h2]
    split
    · exact .inr (.dispatchExt h1 h2 h3 ‹_›)
    · exact .inl rfl
  · simp only [exec, execRdFeedback] at h
    refine takeStep_effect h fun hr hs => .inr ?_
    obtain ⟨h1, h2⟩ := (selector_rdFeedback hr).1 hs
    exact .feedback h1 h2
  · simp only [exec, execRdDispatchEnd] at h
    refine takeStep_effect h fun hr hs => .inr ?_
    obtain ⟨h1, h2⟩ := (selector_rdDispatchEnd hr).1 hs
    exact .dispatchEnd h1 h2
  · simp only [exec, execRdSleepDone] at h
    refine takeStep_effect h fun hr hs => .inr (readingClock_effect fun hb => ?_)
    obtain ⟨h1, h2⟩ := (selector_rdSleepDone hr).1 hs
    exact .sleepDone h1 hb (due_of_forward h2 hb)

/-- Everything the Transmitter's steps can do, if they answer a next state. -/
theorem exec_tx_cases {i : Instr}
    (hi : i ∈ [.txPreload, .txSwapOk, .txSwapUnderrun, .txUnderrunRetry, .txDrainEnd, .txHalfPoint,
      .txNextFrame, .txHalfNeed, .txThrottlePass, .txThrottleHold, .txThrottleRecheck, .txWriteOk,
      .txWriteFail])
    (h : exec i s = .next t) : t = s ∨ Effect i s t := by
  simp only [List.mem_cons, List.not_mem_nil, or_false] at hi
  rcases hi with rfl | rfl | rfl | rfl | rfl | rfl | rfl | rfl | rfl | rfl | rfl | rfl | rfl
  · simp only [exec, execTxPreload] at h
    refine takeStep_effect h fun hr hs => .inr ?_
    obtain ⟨h1, h2⟩ := (selector_txPreload hr).1 hs
    exact .preload h1 h2
  · simp only [exec, execTxSwapOk] at h
    refine takeStep_effect h fun hr hs => .inr ?_
    obtain ⟨h1, h2, h3⟩ := (selector_txSwapOk hr).1 hs
    exact .swapOk h1 h2 h3
  · simp only [exec, execTxSwapUnderrun] at h
    refine takeStep_effect h fun hr hs => .inr (readingClock_effect fun hb => ?_)
    obtain ⟨h1, h2, h3⟩ := (selector_txSwapUnderrun hr).1 hs
    exact .swapUnderrun h1 h2 h3 hb
  · simp only [exec, execTxUnderrunRetry] at h
    refine takeStep_effect h fun hr hs => .inr (readingClock_effect fun hb => ?_)
    obtain ⟨h1, h2⟩ := (selector_txUnderrunRetry hr).1 hs
    exact .underrunRetry h1 hb (due_of_forward h2 hb)
  · simp only [exec, execTxDrainEnd] at h
    refine takeStep_effect h fun hr hs => .inr ?_
    obtain ⟨h1, h2⟩ := (selector_txDrainEnd hr).1 hs
    exact .drainEnd h1 h2
  · simp only [exec, execTxHalfPoint] at h
    refine takeStep_effect h fun hr hs => .inr ?_
    obtain ⟨h1, h2, h3⟩ := (selector_txHalfPoint hr).1 hs
    exact .halfPoint h1 h2 h3
  · simp only [exec, execTxNextFrame] at h
    refine takeStep_effect h fun hr hs => .inr ?_
    obtain ⟨h1, h2, h3⟩ := (selector_txNextFrame hr).1 hs
    exact .nextFrame h1 h2 h3
  · simp only [exec, execTxHalfNeed] at h
    refine takeStep_effect h fun hr hs => .inr ?_
    obtain ⟨h1, h2⟩ := (selector_txHalfNeed hr).1 hs
    exact .halfNeed h1 h2
  · simp only [exec, execTxThrottlePass] at h
    refine takeStep_effect h fun hr hs => .inr ?_
    obtain ⟨h1, h2⟩ := (selector_txThrottlePass hr).1 hs
    by_cases h3 : s.widx < s.params.txBufFrames
    · simp only [State.bufRead, if_pos h3]
      exact .throttlePass h1 h2 h3
    · simp only [State.bufRead, if_neg h3]
      exact .fault
  · simp only [exec, execTxThrottleHold] at h
    refine takeStep_effect h fun hr hs => .inr (readingClock_effect fun hb => ?_)
    obtain ⟨h1, h2⟩ := (selector_txThrottleHold hr).1 hs
    exact .throttleHold h1 h2 hb
  · simp only [exec, execTxThrottleRecheck] at h
    refine takeStep_effect h fun hr hs => .inr (readingClock_effect fun hb => ?_)
    obtain ⟨h1, h2⟩ := (selector_txThrottleRecheck hr).1 hs
    exact .throttleRecheck h1 hb (due_of_forward h2 hb)
  · simp only [exec, execTxWriteOk] at h
    refine takeStep_effect h fun hr hs => .inr ?_
    obtain ⟨h1, h2⟩ := (selector_txWriteOk hr).1 hs
    exact .writeOk h1 h2
  · simp only [exec, execTxWriteFail] at h
    refine takeStep_effect h fun hr hs => .inr ?_
    obtain ⟨h1, code, h2⟩ := (selector_txWriteFail hr).1 hs
    simp only [h2]
    exact .writeFail h1 h2

/-- Everything the Producer's steps can do, if they answer a next state. -/
theorem exec_pr_cases {i : Instr} (hi : i ∈ [.prPullIssue, .prPullNone, .prPullDone])
    (h : exec i s = .next t) : t = s ∨ Effect i s t := by
  simp only [List.mem_cons, List.not_mem_nil, or_false] at hi
  rcases hi with rfl | rfl | rfl
  · simp only [exec, execPrPullIssue] at h
    refine takeStep_effect h fun hr hs => .inr ?_
    obtain ⟨h1, h2, h3⟩ := (selector_prPullIssue hr).1 hs
    exact .pullIssue h1 h2 h3
  · simp only [exec, execPrPullNone] at h
    refine takeStep_effect h fun hr hs => .inr ?_
    obtain ⟨h1, h2, h3⟩ := (selector_prPullNone hr).1 hs
    exact .pullNone h1 h2 h3
  · simp only [exec, execPrPullDone] at h
    refine takeStep_effect h fun hr hs => .inr ?_
    obtain ⟨h1, h2⟩ := (selector_prPullDone hr).1 hs
    obtain ⟨frames, h2⟩ := Option.isSome_iff_exists.1 h2
    simp only [h2]
    split
    · exact .fault
    · by_cases h3 : frames = [] ∨ s.cnt s.client + frames.length ≤ s.params.txBufFrames
      · simp only [State.bufWriteFrom, if_pos h3]
        exact .pullDone h1 h2 (Nat.le_of_not_lt ‹_›) h3
      · simp only [State.bufWriteFrom, if_neg h3]
        exact .fault

/-- Everything the control unit's own steps can do, if they answer a next state. -/
theorem exec_cu_cases {i : Instr}
    (hi : i ∈ [.cuDeviceOpenOk, .cuDeviceOpenFail, .cuStartRd, .cuStartTx])
    (h : exec i s = .next t) : t = s ∨ Effect i s t := by
  simp only [List.mem_cons, List.not_mem_nil, or_false] at hi
  rcases hi with rfl | rfl | rfl | rfl
  · simp only [exec, execCuDeviceOpenOk] at h
    refine takeStep_effect h fun hr hs => .inr ?_
    obtain ⟨h1, h2⟩ := (selector_cuDeviceOpenOk hr).1 hs
    exact .deviceOpenOk h1 h2
  · simp only [exec, execCuDeviceOpenFail] at h
    refine takeStep_effect h fun hr hs => .inr ?_
    obtain ⟨h1, h2⟩ := (selector_cuDeviceOpenFail hr).1 hs
    exact .deviceOpenFail h1 h2
  · simp only [exec, execCuStartRd] at h
    exact takeStep_effect h fun hr hs => .inr (.startRd ((selector_cuStartRd hr).1 hs))
  · simp only [exec, execCuStartTx] at h
    exact takeStep_effect h fun hr hs => .inr (.startTx ((selector_cuStartTx hr).1 hs))

/-- Everything CLOSE can do, if it answers a next state. -/
theorem exec_closeSession_cases {operand : Byte} (h : exec (.closeSession operand) s = .next t) :
    t = s ∨ Effect (.closeSession operand) s t := by
  simp only [exec, execCloseSession] at h
  refine takeCommand_effect ⟨_, rfl⟩ h fun hb hl => ?_
  have h0 : operand = 0 := by simpa using hl
  subst h0
  split
  · exact .misuse ⟨_, rfl⟩
  · rename_i hs
    by_cases ht : s.txState = TX_STOPPED
    · have hc : s.closeTransmitter = some s := by rw [State.closeTransmitter, if_pos ht]
      by_cases hrs : s.rdState = RD_STOPPED
      · have hd : s.closeReader = some s := by rw [State.closeReader, if_pos hrs]
        have he : s.rdRunning = false := by rw [State.rdRunning, hrs]; rfl
        simp only [hc, hd]
        exact .closeBoth hb hs (.inl ⟨ht, rfl⟩) he (.inl ⟨hrs, rfl⟩)
      · cases he : s.rdRunning with
        | true =>
          have hd : s.closeReader = none := by rw [State.closeReader, if_neg hrs, he]; rfl
          simp only [hc, hd]
          exact .misuse ⟨_, rfl⟩
        | false =>
          have hd : s.closeReader = some s.rdClose := by rw [State.closeReader, if_neg hrs, he]; rfl
          simp only [hc, hd]
          exact .closeBoth hb hs (.inl ⟨ht, rfl⟩) he (.inr ⟨hrs, rfl⟩)
    · by_cases hu : (s.txRunning || decide (s.prState = PR_PULL_WAIT)) = true
      · have hc : s.closeTransmitter = none := by rw [State.closeTransmitter, if_neg ht, if_pos hu]
        simp only [hc]
        exact .misuse ⟨_, rfl⟩
      · have hc : s.closeTransmitter = some s.txClose := by
          rw [State.closeTransmitter, if_neg ht, if_neg hu]
        have hx : s.txRunning = false ∧ s.prState ≠ PR_PULL_WAIT := by simpa using hu
        by_cases hrs : s.rdState = RD_STOPPED
        · have hd : s.txClose.closeReader = some s.txClose := by
            rw [State.closeReader, State.txClose_rdState, if_pos hrs]
          have he : s.rdRunning = false := by rw [State.rdRunning, hrs]; rfl
          simp only [hc, hd]
          exact .closeBoth hb hs (.inr ⟨ht, hx.1, hx.2, rfl⟩) he (.inl ⟨hrs, rfl⟩)
        · cases he : s.rdRunning with
          | true =>
            have hd : s.txClose.closeReader = none := by
              rw [State.closeReader, State.txClose_rdState, if_neg hrs]; exact if_pos he
            simp only [hc, hd]
            exact .closePart hb hs ht hx.1 hx.2 he
          | false =>
            have hd : s.txClose.closeReader = some s.txClose.rdClose := by
              rw [State.closeReader, State.txClose_rdState, if_neg hrs]
              exact if_neg (ne_true_of_eq_false he)
            simp only [hc, hd]
            exact .closeBoth hb hs (.inr ⟨ht, hx.1, hx.2, rfl⟩) he (.inr ⟨hrs, rfl⟩)

/-- Everything an instruction can do, if it answers a next state: nothing, where it is held, or its
effect. -/
theorem exec_cases {i : Instr} (h : exec i s = .next t) : t = s ∨ Effect i s t := by
  cases i with
  | codecEncode f => cases h; exact .inr .codecEncode
  | codecDecode w => cases h; exact .inr .codecDecode
  | rxUnsyncHi data =>
    simp only [exec, execRxUnsyncHi] at h
    exact takeByteStep_effect rfl acceptStatus_eq h
  | rxUnsyncLo data =>
    simp only [exec, execRxUnsyncLo] at h
    exact takeByteStep_effect rfl discardLo_eq h
  | rxStatusReadHi data =>
    simp only [exec, execRxStatusReadHi] at h
    exact takeByteStep_effect rfl (fun h1 h2 => discardHi_eq (by rw [h1]; decide) h2) h
  | rxStatusReadLo data =>
    simp only [exec, execRxStatusReadLo] at h
    exact takeByteStep_effect rfl
      (fun h1 h2 => acceptPayload_eq (by rw [h1]; decide) (by rw [h1]; decide) h2) h
  | rxP1ReadHi data =>
    simp only [exec, execRxP1ReadHi] at h
    exact takeByteStep_effect rfl (fun h1 h2 => discardHi_eq (by rw [h1]; decide) h2) h
  | rxP1ReadLo data =>
    simp only [exec, execRxP1ReadLo] at h
    exact takeByteStep_effect rfl
      (fun h1 h2 => acceptPayload_eq (by rw [h1]; decide) (by rw [h1]; decide) h2) h
  | rxP2ReadHi data =>
    simp only [exec, execRxP2ReadHi] at h
    exact takeByteStep_effect rfl (fun h1 h2 => discardHi_eq (by rw [h1]; decide) h2) h
  | rxP2ReadLo data =>
    simp only [exec, execRxP2ReadLo] at h
    exact takeByteStep_effect rfl
      (fun h1 h2 => acceptPayload_eq (by rw [h1]; decide) (by rw [h1]; decide) h2) h
  | rxP3ReadHi data =>
    simp only [exec, execRxP3ReadHi] at h
    exact takeByteStep_effect rfl (fun h1 h2 => discardHi_eq (by rw [h1]; decide) h2) h
  | rxP3ReadLo data =>
    simp only [exec, execRxP3ReadLo] at h
    exact takeByteStep_effect rfl
      (fun h1 h2 => acceptPayload_eq (by rw [h1]; decide) (by rw [h1]; decide) h2) h
  | rxP4ReadHi data =>
    simp only [exec, execRxP4ReadHi] at h
    exact takeByteStep_effect rfl (fun h1 h2 => discardHi_eq (by rw [h1]; decide) h2) h
  | rxP4ReadLo data =>
    simp only [exec, execRxP4ReadLo] at h
    exact takeByteStep_effect rfl
      (fun h1 h2 => acceptPayload_eq (by rw [h1]; decide) (by rw [h1]; decide) h2) h
  | rxP5ReadHi data =>
    simp only [exec, execRxP5ReadHi] at h
    exact takeByteStep_effect rfl (fun h1 h2 => discardHi_eq (by rw [h1]; decide) h2) h
  | rxP5ReadLo data =>
    simp only [exec, execRxP5ReadLo] at h
    exact takeByteStep_effect rfl completeFrame_eq h
  | openSession operand =>
    simp only [exec, execOpenSession] at h
    refine takeCommand_effect ⟨_, rfl⟩ h fun hb _ => ?_
    by_cases hs : s.ssState = SS_CLOSED
    · rw [if_neg (not_not_intro hs)]; exact .openSession hb hs
    · rw [if_pos hs]; exact .misuse ⟨_, rfl⟩
  | closeSession operand => exact exec_closeSession_cases h
  | attachRec operand =>
    simp only [exec, execAttachRec] at h
    refine takeCommand_effect ⟨_, rfl⟩ h fun hb hl => ?_
    by_cases h1 : operand ∈ s.recReg
    · rw [if_pos h1]; exact .answered ⟨_, rfl⟩ hb
    · rw [if_neg h1]
      by_cases h2 : s.externals = s.params.maxRecorders
      · rw [if_pos h2]; exact .attachRecFull hb
      · rw [if_neg h2]; exact .attachRec hb (of_decide_eq_true hl) h1 h2
  | detachRec operand =>
    simp only [exec, execDetachRec] at h
    exact takeCommand_effect ⟨_, rfl⟩ h fun hb hl => .detachRec hb (of_decide_eq_true hl)
  | attachPlayer operand =>
    simp only [exec, execAttachPlayer] at h
    refine takeCommand_effect ⟨_, rfl⟩ h fun hb hl => ?_
    by_cases h1 : s.player = 0
    · rw [if_neg (not_not_intro h1)]; exact .attachPlayer hb (of_decide_eq_true hl) h1
    · rw [if_pos h1]; exact .misuse ⟨_, rfl⟩
  | detachPlayer operand =>
    simp only [exec, execDetachPlayer] at h
    refine takeCommand_effect ⟨_, rfl⟩ h fun hb hl => ?_
    by_cases h1 : s.player = operand
    · rw [if_pos h1]; exact .detachPlayer hb (of_decide_eq_true hl) h1
    · rw [if_neg h1]; exact .answered ⟨_, rfl⟩ hb
  | readStatus operand =>
    simp only [exec, execReadStatus] at h
    exact takeCommand_effect ⟨_, rfl⟩ h fun hb _ => .answered ⟨_, rfl⟩ hb
  | readRdFailure operand =>
    simp only [exec, execReadRdFailure] at h
    exact takeCommand_effect ⟨_, rfl⟩ h fun hb _ => .answered ⟨_, rfl⟩ hb
  | readTxFailure operand =>
    simp only [exec, execReadTxFailure] at h
    exact takeCommand_effect ⟨_, rfl⟩ h fun hb _ => .answered ⟨_, rfl⟩ hb
  | rdReadData => exact exec_rd_cases (by simp) h
  | rdReadEmpty => exact exec_rd_cases (by simp) h
  | rdReadFail => exact exec_rd_cases (by simp) h
  | rdByteStep => exact exec_rd_cases (by simp) h
  | rdBufDone => exact exec_rd_cases (by simp) h
  | rdDispatchExt => exact exec_rd_cases (by simp) h
  | rdFeedback => exact exec_rd_cases (by simp) h
  | rdDispatchEnd => exact exec_rd_cases (by simp) h
  | rdSleepDone => exact exec_rd_cases (by simp) h
  | txPreload => exact exec_tx_cases (by simp) h
  | txSwapOk => exact exec_tx_cases (by simp) h
  | txSwapUnderrun => exact exec_tx_cases (by simp) h
  | txUnderrunRetry => exact exec_tx_cases (by simp) h
  | txDrainEnd => exact exec_tx_cases (by simp) h
  | txHalfPoint => exact exec_tx_cases (by simp) h
  | txNextFrame => exact exec_tx_cases (by simp) h
  | txHalfNeed => exact exec_tx_cases (by simp) h
  | txThrottlePass => exact exec_tx_cases (by simp) h
  | txThrottleHold => exact exec_tx_cases (by simp) h
  | txThrottleRecheck => exact exec_tx_cases (by simp) h
  | txWriteOk => exact exec_tx_cases (by simp) h
  | txWriteFail => exact exec_tx_cases (by simp) h
  | prPullIssue => exact exec_pr_cases (by simp) h
  | prPullNone => exact exec_pr_cases (by simp) h
  | prPullDone => exact exec_pr_cases (by simp) h
  | cuDeviceOpenOk => exact exec_cu_cases (by simp) h
  | cuDeviceOpenFail => exact exec_cu_cases (by simp) h
  | cuStartRd => exact exec_cu_cases (by simp) h
  | cuStartTx => exact exec_cu_cases (by simp) h

end Sys2Proof.Machine
end

