-- ==== Sys2Proof/Laws/PerInstr.lean ====
section
/-! SUPPORT. Per instruction: decoding the word of a well-formed instruction gives it back. -/

namespace Sys2Proof.Laws

/-- Decoding the word of a well-formed instruction gives it back. -/
def RoundTrip.Statement (i : Instr) : Prop := wellFormed i = true → decode (encode i) = .instr i

/-- The bits of a wire frame's payload, as numbers. -/
theorem wireOfBits_toNat (f : Frame) :
    (wireOfBits f).status.toNat = 128 + f.status.toNat % 128 ∧
      (wireOfBits f).p1.toNat = f.lever0.toNat / 2 % 128 ∧
      (wireOfBits f).p2.toNat = f.lever0.toNat % 2 * 64 + f.lever1.toNat / 4 % 64 ∧
      (wireOfBits f).p3.toNat = f.lever1.toNat % 4 * 32 + f.lever2.toNat / 8 % 32 ∧
      (wireOfBits f).p4.toNat = f.lever2.toNat % 8 * 16 + f.lever3.toNat / 16 % 16 ∧
      (wireOfBits f).p5.toNat = f.lever3.toNat % 16 * 8 ∧
      (wireOfBits f).p6.toNat = f.buttons.toNat % 128 := by
  simp only [wireOfBits, statusByte, payloadByte, toNat_concat_1_7, toNat_concat_1_6, toNat_concat_2_5, toNat_concat_3_4,
    toNat_concat_4_3, toNat_slice, BitVec.toNat_ofNat]
  omega

/-- The bits of a storage frame read back, as numbers. -/
theorem bitsOfWire_toNat (w : WireFrame) :
    (bitsOfWire w).status.toNat = w.status.toNat % 128 ∧
      (bitsOfWire w).lever0.toNat = w.p1.toNat % 128 * 2 + w.p2.toNat / 64 % 2 ∧
      (bitsOfWire w).lever1.toNat = w.p2.toNat % 64 * 4 + w.p3.toNat / 32 % 4 ∧
      (bitsOfWire w).lever2.toNat = w.p3.toNat % 32 * 8 + w.p4.toNat / 16 % 8 ∧
      (bitsOfWire w).lever3.toNat = w.p4.toNat % 16 * 16 + w.p5.toNat / 8 % 16 ∧
      (bitsOfWire w).buttons.toNat = w.p6.toNat % 128 := by
  simp only [bitsOfWire, payloadByte, toNat_concat_1_7, toNat_concat_7_1, toNat_concat_6_2, toNat_concat_5_3,
    toNat_concat_4_4, toNat_slice, BitVec.toNat_ofNat]
  omega

/-- The wire frame of any frame's bits keeps the bit-7 rules. -/
theorem wireOfBits_markersOk (f : Frame) : (wireOfBits f).markersOk = true := by
  have h := wireOfBits_toNat f
  simp only [WireFrame.markersOk, msb_byte, Bool.and_eq_true, Bool.not_eq_true', decide_eq_true_eq,
    decide_eq_false_iff_not]
  omega

/-- The low three bits of its `p5` are 0. -/
theorem wireOfBits_p5 (f : Frame) : (wireOfBits f).p5.extractLsb' 0 3 = 0#3 := by
  have h := wireOfBits_toNat f
  apply BitVec.eq_of_toNat_eq
  rw [toNat_slice, BitVec.toNat_ofNat]
  omega

/-- Frames are equal when their bytes are, as numbers. -/
theorem frame_ext_toNat {g k : Frame} (hs : g.status.toNat = k.status.toNat)
    (h0 : g.lever0.toNat = k.lever0.toNat) (h1 : g.lever1.toNat = k.lever1.toNat)
    (h2 : g.lever2.toNat = k.lever2.toNat) (h3 : g.lever3.toNat = k.lever3.toNat)
    (hb : g.buttons.toNat = k.buttons.toNat) : g = k := by
  obtain ⟨gs, g0, g1, g2, g3, gb⟩ := g
  obtain ⟨ks, k0, k1, k2, k3, kb⟩ := k
  simp only [BitVec.toNat_inj] at hs h0 h1 h2 h3 hb
  subst hs h0 h1 h2 h3 hb
  rfl

/-- The bits of an encodable frame stand in its wire frame. -/
theorem bitsOfWire_wireOfBits (f : Frame) (h : f.encodable = true) :
    bitsOfWire (wireOfBits f) = f := by
  obtain ⟨w0, w1, w2, w3, w4, w5, w6⟩ := wireOfBits_toNat f
  obtain ⟨b0, b1, b2, b3, b4, b5⟩ := bitsOfWire_toNat (wireOfBits f)
  simp only [Frame.encodable, msb_byte, Bool.and_eq_true, Bool.not_eq_true',
    decide_eq_false_iff_not] at h
  have h0 := byte_lt f.lever0
  have h1 := byte_lt f.lever1
  have h2 := byte_lt f.lever2
  have h3 := byte_lt f.lever3
  apply frame_ext_toNat
  · rw [b0, w0]; clear * - h; omega
  · rw [b1, w1, w2]; clear * - h0; omega
  · rw [b2, w2, w3]; clear * - h1; omega
  · rw [b3, w3, w4]; clear * - h2; omega
  · rw [b4, w4, w5]; clear * - h3; omega
  · rw [b5, w6]; clear * - h; omega

theorem RoundTrip.codecEncode (f : Frame) : RoundTrip.Statement (.codecEncode f) := by
  intro h
  simp only [wellFormed] at h
  simp [encode, decode, wireOfBits_markersOk, wireOfBits_p5, bitsOfWire_wireOfBits f h]

/-- The upper field of a concatenation. -/
theorem slice_concat_hi {n m : Nat} (x : BitVec n) (y : BitVec m) :
    (x ++ y).extractLsb' m n = x := by
  apply BitVec.eq_of_toNat_eq
  rw [toNat_slice, toNat_concat, Nat.mul_comm, Nat.mul_add_div (Nat.two_pow_pos m),
    Nat.div_eq_of_lt y.isLt, Nat.add_zero, Nat.mod_eq_of_lt x.isLt]

/-- The lower field of a concatenation. -/
theorem slice_concat_lo {n m : Nat} (x : BitVec n) (y : BitVec m) :
    (x ++ y).extractLsb' 0 m = y := by
  apply BitVec.eq_of_toNat_eq
  rw [toNat_slice, toNat_concat, Nat.pow_zero, Nat.div_one, Nat.mul_comm, Nat.mul_add_mod,
    Nat.mod_eq_of_lt y.isLt]

/-- An `rx_sel` word built from a row's key decodes to the row. -/
theorem decode_rxSel (key : BitVec 4) (data : BitVec 7) (row : BitVec 7 → Instr)
    (h : tableFind key rxTable = some row) : decode (.rxSel (key ++ data)) = .instr (row data) := by
  have hk : @BitVec.extractLsb' 11 7 4 (key ++ data) = key := slice_concat_hi key data
  have hd : @BitVec.extractLsb' 11 0 7 (key ++ data) = data := slice_concat_lo key data
  simp only [decode, hk, hd, h]

/-- A `ctl_cmd` word built from a row's opcode decodes to the row. -/
theorem decode_ctlCmd (op : BitVec 8) (operand : Byte) (row : Byte → Instr)
    (h : tableFind op opcodeTable = some row) :
    decode (.ctlCmd (op ++ operand)) = .instr (row operand) := by
  have hk : @BitVec.extractLsb' 16 8 8 (op ++ operand) = op := slice_concat_hi op operand
  have hd : @BitVec.extractLsb' 16 0 8 (op ++ operand) = operand := slice_concat_lo op operand
  simp only [decode, hk, hd, h]

theorem RoundTrip.codecDecode (w : WireFrame) : RoundTrip.Statement (.codecDecode w) := by
  intro h; simp only [wellFormed] at h; simp [encode, decode, h]

theorem RoundTrip.rxUnsyncHi (data : BitVec 7) : RoundTrip.Statement (.rxUnsyncHi data) := fun _ => decode_rxSel _ data _ rfl

theorem RoundTrip.rxUnsyncLo (data : BitVec 7) : RoundTrip.Statement (.rxUnsyncLo data) := fun _ => decode_rxSel _ data _ rfl

theorem RoundTrip.rxStatusReadHi (data : BitVec 7) : RoundTrip.Statement (.rxStatusReadHi data) := fun _ => decode_rxSel _ data _ rfl

theorem RoundTrip.rxStatusReadLo (data : BitVec 7) : RoundTrip.Statement (.rxStatusReadLo data) := fun _ => decode_rxSel _ data _ rfl

theorem RoundTrip.rxP1ReadHi (data : BitVec 7) : RoundTrip.Statement (.rxP1ReadHi data) := fun _ => decode_rxSel _ data _ rfl

theorem RoundTrip.rxP1ReadLo (data : BitVec 7) : RoundTrip.Statement (.rxP1ReadLo data) := fun _ => decode_rxSel _ data _ rfl

theorem RoundTrip.rxP2ReadHi (data : BitVec 7) : RoundTrip.Statement (.rxP2ReadHi data) := fun _ => decode_rxSel _ data _ rfl

theorem RoundTrip.rxP2ReadLo (data : BitVec 7) : RoundTrip.Statement (.rxP2ReadLo data) := fun _ => decode_rxSel _ data _ rfl

theorem RoundTrip.rxP3ReadHi (data : BitVec 7) : RoundTrip.Statement (.rxP3ReadHi data) := fun _ => decode_rxSel _ data _ rfl

theorem RoundTrip.rxP3ReadLo (data : BitVec 7) : RoundTrip.Statement (.rxP3ReadLo data) := fun _ => decode_rxSel _ data _ rfl

theorem RoundTrip.rxP4ReadHi (data : BitVec 7) : RoundTrip.Statement (.rxP4ReadHi data) := fun _ => decode_rxSel _ data _ rfl

theorem RoundTrip.rxP4ReadLo (data : BitVec 7) : RoundTrip.Statement (.rxP4ReadLo data) := fun _ => decode_rxSel _ data _ rfl

theorem RoundTrip.rxP5ReadHi (data : BitVec 7) : RoundTrip.Statement (.rxP5ReadHi data) := fun _ => decode_rxSel _ data _ rfl

theorem RoundTrip.rxP5ReadLo (data : BitVec 7) : RoundTrip.Statement (.rxP5ReadLo data) := fun _ => decode_rxSel _ data _ rfl

theorem RoundTrip.openSession (operand : Byte) : RoundTrip.Statement (.openSession operand) := fun _ => decode_ctlCmd _ operand _ rfl

theorem RoundTrip.closeSession (operand : Byte) : RoundTrip.Statement (.closeSession operand) := fun _ => decode_ctlCmd _ operand _ rfl

theorem RoundTrip.attachRec (operand : Byte) : RoundTrip.Statement (.attachRec operand) := fun _ => decode_ctlCmd _ operand _ rfl

theorem RoundTrip.detachRec (operand : Byte) : RoundTrip.Statement (.detachRec operand) := fun _ => decode_ctlCmd _ operand _ rfl

theorem RoundTrip.attachPlayer (operand : Byte) : RoundTrip.Statement (.attachPlayer operand) := fun _ => decode_ctlCmd _ operand _ rfl

theorem RoundTrip.detachPlayer (operand : Byte) : RoundTrip.Statement (.detachPlayer operand) := fun _ => decode_ctlCmd _ operand _ rfl

theorem RoundTrip.readStatus (operand : Byte) : RoundTrip.Statement (.readStatus operand) := fun _ => decode_ctlCmd _ operand _ rfl

theorem RoundTrip.readRdFailure (operand : Byte) : RoundTrip.Statement (.readRdFailure operand) := fun _ => decode_ctlCmd _ operand _ rfl

theorem RoundTrip.readTxFailure (operand : Byte) : RoundTrip.Statement (.readTxFailure operand) := fun _ => decode_ctlCmd _ operand _ rfl

theorem RoundTrip.rdReadData : RoundTrip.Statement .rdReadData := fun _ => rfl

theorem RoundTrip.rdReadEmpty : RoundTrip.Statement .rdReadEmpty := fun _ => rfl

theorem RoundTrip.rdReadFail : RoundTrip.Statement .rdReadFail := fun _ => rfl

theorem RoundTrip.rdByteStep : RoundTrip.Statement .rdByteStep := fun _ => rfl

theorem RoundTrip.rdBufDone : RoundTrip.Statement .rdBufDone := fun _ => rfl

theorem RoundTrip.rdDispatchExt : RoundTrip.Statement .rdDispatchExt := fun _ => rfl

theorem RoundTrip.rdFeedback : RoundTrip.Statement .rdFeedback := fun _ => rfl

theorem RoundTrip.rdDispatchEnd : RoundTrip.Statement .rdDispatchEnd := fun _ => rfl

theorem RoundTrip.rdSleepDone : RoundTrip.Statement .rdSleepDone := fun _ => rfl

theorem RoundTrip.txPreload : RoundTrip.Statement .txPreload := fun _ => rfl

theorem RoundTrip.txSwapOk : RoundTrip.Statement .txSwapOk := fun _ => rfl

theorem RoundTrip.txSwapUnderrun : RoundTrip.Statement .txSwapUnderrun := fun _ => rfl

theorem RoundTrip.txUnderrunRetry : RoundTrip.Statement .txUnderrunRetry := fun _ => rfl

theorem RoundTrip.txDrainEnd : RoundTrip.Statement .txDrainEnd := fun _ => rfl

theorem RoundTrip.txHalfPoint : RoundTrip.Statement .txHalfPoint := fun _ => rfl

theorem RoundTrip.txNextFrame : RoundTrip.Statement .txNextFrame := fun _ => rfl

theorem RoundTrip.txHalfNeed : RoundTrip.Statement .txHalfNeed := fun _ => rfl

theorem RoundTrip.txThrottlePass : RoundTrip.Statement .txThrottlePass := fun _ => rfl

theorem RoundTrip.txThrottleHold : RoundTrip.Statement .txThrottleHold := fun _ => rfl

theorem RoundTrip.txThrottleRecheck : RoundTrip.Statement .txThrottleRecheck := fun _ => rfl

theorem RoundTrip.txWriteOk : RoundTrip.Statement .txWriteOk := fun _ => rfl

theorem RoundTrip.txWriteFail : RoundTrip.Statement .txWriteFail := fun _ => rfl

theorem RoundTrip.prPullIssue : RoundTrip.Statement .prPullIssue := fun _ => rfl

theorem RoundTrip.prPullNone : RoundTrip.Statement .prPullNone := fun _ => rfl

theorem RoundTrip.prPullDone : RoundTrip.Statement .prPullDone := fun _ => rfl

theorem RoundTrip.cuDeviceOpenOk : RoundTrip.Statement .cuDeviceOpenOk := fun _ => rfl

theorem RoundTrip.cuDeviceOpenFail : RoundTrip.Statement .cuDeviceOpenFail := fun _ => rfl

theorem RoundTrip.cuStartRd : RoundTrip.Statement .cuStartRd := fun _ => rfl

theorem RoundTrip.cuStartTx : RoundTrip.Statement .cuStartTx := fun _ => rfl

end Sys2Proof.Laws
end

