-- ==== Sys2Proof/Laws/Step.lean ====
section
/-! SUPPORT. What one move can do, said once: the word it runs, the answer it puts on offer, the
clock it moves, or nothing. -/

namespace Sys2Proof.Machine

variable {s t : State}

/-- Everything an answer to the read can do: it is put on offer, or is a model fault. -/
theorem offerRead_cases (s : State) (r : ReadAnswer) :
    (s.rdState = RD_READ ∧ s.envRead = none ∧ s.offerRead r = { s with envRead := some r }) ∨
      s.offerRead r = s.modelFault := by
  unfold State.offerRead
  split
  · rename_i h
    simp only [State.readOutstanding, Bool.and_eq_true, decide_eq_true_eq, Option.isNone_iff_eq_none] at h
    exact .inl ⟨h.1, h.2, rfl⟩
  · exact .inr rfl

/-- Everything an answer to the write can do: it is put on offer, or is a model fault. -/
theorem offerWrite_cases (s : State) (r : WriteAnswer) :
    (s.txState = TX_WRITE_WAIT ∧ s.envWrite = none ∧ s.offerWrite r = { s with envWrite := some r }) ∨
      s.offerWrite r = s.modelFault := by
  unfold State.offerWrite
  split
  · rename_i h
    simp only [State.writeOutstanding, Bool.and_eq_true, decide_eq_true_eq, Option.isNone_iff_eq_none] at h
    exact .inl ⟨h.1, h.2, rfl⟩
  · exact .inr rfl

/-- Everything an answer to the pull can do: it is put on offer, or is a model fault. -/
theorem offerPull_cases (s : State) (r : List Frame) :
    (s.prState = PR_PULL_WAIT ∧ s.envPull = none ∧ s.offerPull r = { s with envPull := some r }) ∨
      s.offerPull r = s.modelFault := by
  unfold State.offerPull
  split
  · rename_i h
    simp only [State.pullOutstanding, Bool.and_eq_true, decide_eq_true_eq, Option.isNone_iff_eq_none] at h
    exact .inl ⟨h.1, h.2, rfl⟩
  · exact .inr rfl

/-- Everything an answer to the device open can do: it is put on offer, or is a model fault. -/
theorem offerDevice_cases (s : State) (r : DeviceAnswer) :
    (s.ssState = SS_OPENING ∧ s.envDevice = none ∧ s.offerDevice r = { s with envDevice := some r }) ∨
      s.offerDevice r = s.modelFault := by
  unfold State.offerDevice
  split
  · rename_i h
    simp only [State.deviceOutstanding, Bool.and_eq_true, decide_eq_true_eq, Option.isNone_iff_eq_none] at h
    exact .inl ⟨h.1, h.2, rfl⟩
  · exact .inr rfl

/-- Everything a Recorder's acceptance can do: it is put on offer, or is a model fault. -/
theorem offerAck_cases (s : State) (id : Byte) :
    (s.rdState = RD_DISPATCH ∧ s.dispList[s.dispIdx]? = some id ∧ id ≠ 0 ∧ s.envAck = none ∧
        s.offerAck id = { s with envAck := some id }) ∨
      s.offerAck id = s.modelFault := by
  unfold State.offerAck
  split
  · rename_i h
    simp only [State.ackOutstanding, hostId, Bool.and_eq_true, decide_eq_true_eq,
      Option.isNone_iff_eq_none] at h
    exact .inl ⟨h.1.1.1, h.1.1.2, h.1.2, h.2, rfl⟩
  · exact .inr rfl

/-- Everything a command with a reserved opcode can do, if it answers a next state. -/
theorem reservedCommand_cases (h : reservedCommand s = .next t) :
    t = s.modelFault ∨ t = s.answerMisuse ∨ t = s.answerIllegal := by
  obtain ⟨-, ⟨-, h⟩ | ⟨-, -, h⟩ | ⟨-, -, h, -⟩ | ⟨-, -, -, h⟩⟩ := takeCommand_cases h
  · exact .inl h
  · exact .inr (.inl h)
  · cases h
  · exact .inr (.inr h)

/-- Everything a word that is no instruction can do, if it answers a next state. -/
theorem undecoded_cases {e : DecodeError} (h : undecoded e s = .next t) :
    t = s ∨ t = s.modelFault ∨ reservedCommand s = .next t := by
  cases e with
  | notAWireFrame => cases h
  | notEncoderOutput => cases h
  | reservedSyncState => cases h; split <;> simp
  | reservedOpcode _ => exact .inr (.inr h)
  | unlistedSelector sel => cases h; split <;> simp

/-- Everything a word can do, if it answers a next state: it runs the instruction it stands for, or
is left to `undecoded`. -/
theorem runCode_cases {c : Code} (h : runCode c s = .next t) :
    (∃ i, decode c = .instr i ∧ exec i s = .next t) ∨
      (∃ e, decode c = .rejected e) ∧ (t = s ∨ t = s.modelFault ∨ reservedCommand s = .next t) := by
  unfold runCode at h
  split at h
  · exact .inl ⟨_, ‹_›, h⟩
  · exact .inr ⟨⟨_, ‹_›⟩, undecoded_cases h⟩

/-- Everything a step of the machine can do, if it answers a next state. The state the move acts on
is the one without that move. -/
theorem step_cases (h : step s = .next t) :
    s.faulted = false ∧
      (t = s ∨ t = s.popTurn ∨ t = s.popTurn.modelFault ∨
        (∃ i, exec i s.popTurn = .next t) ∨ reservedCommand s.popTurn = .next t ∨
        (∃ r, t = s.popTurn.offerRead r) ∨ (∃ r, t = s.popTurn.offerWrite r) ∨
        (∃ frames, t = s.popTurn.offerPull frames) ∨ (∃ id, t = s.popTurn.offerAck id) ∨
        (∃ r, t = s.popTurn.offerDevice r) ∨ ∃ now, t = s.popTurn.setClock now) := by
  unfold step at h
  split at h
  · cases h
  · refine ⟨by simpa using ‹¬s.faulted = true›, ?_⟩
    have run : ∀ c, runCode c s.popTurn = .next t →
        t = s.popTurn ∨ t = s.popTurn.modelFault ∨
          (∃ i, exec i s.popTurn = .next t) ∨ reservedCommand s.popTurn = .next t := by
      intro c hc
      rcases runCode_cases hc with ⟨i, -, hi⟩ | ⟨-, h | h | h⟩
      · exact .inr (.inr (.inl ⟨i, hi⟩))
      · exact .inl h
      · exact .inr (.inl h)
      · exact .inr (.inr (.inr h))
    split at h
    · cases h; exact .inl rfl
    · rcases run _ h with h | h | h | h <;> simp [h]
    · split at h
      · rcases run _ h with h | h | h | h <;> simp [h]
      · cases h; simp
    · cases h; exact .inr (.inr (.inr (.inr (.inr (.inl ⟨_, rfl⟩)))))
    · cases h; exact .inr (.inr (.inr (.inr (.inr (.inr (.inl ⟨_, rfl⟩))))))
    · cases h; exact .inr (.inr (.inr (.inr (.inr (.inr (.inr (.inl ⟨_, rfl⟩)))))))
    · cases h; exact .inr (.inr (.inr (.inr (.inr (.inr (.inr (.inr (.inl ⟨_, rfl⟩))))))))
    · cases h; exact .inr (.inr (.inr (.inr (.inr (.inr (.inr (.inr (.inr (.inl ⟨_, rfl⟩)))))))))
    · cases h; exact .inr (.inr (.inr (.inr (.inr (.inr (.inr (.inr (.inr (.inr ⟨_, rfl⟩)))))))))

end Sys2Proof.Machine
end

