-- ==== Sys2Proof/Machine/Stimulus.lean ====
section
/-! DEFINITION. The lines of programs and stimuli (30_encoding R115), the pseudo-instructions (R116)
and what a line does to a machine on a bench. The bench's schedule is the test schedule of decision
D47, no rule of the engine (log 18). -/

namespace Sys2Proof.Machine

/-- A line of a program (30_encoding R115). -/
inductive Line where
  /-- `CMD`: the host issues this `ctl_cmd`. -/
  | cmd (w : BitVec 16)
  /-- `DEV_OK`. -/
  | devOk
  /-- `DEV_ERR`. -/
  | devErr
  /-- `RX b0 b1 ..`; with no byte it is `RX_EMPTY`. -/
  | rx (bytes : List Byte)
  /-- `RX_ERR code`. -/
  | rxErr (code : Byte)
  /-- `PULL k [..] x k`. -/
  | pull (frames : List Frame)
  /-- `WR_OK`. -/
  | wrOk
  /-- `WR_ERR code`. -/
  | wrErr (code : Byte)
  /-- `ACK`. -/
  | ack
  /-- `TICK n`. -/
  | tick (n : Nat)
  /-- `RUN`. -/
  | run
  deriving DecidableEq, Repr

/-- `RXF`: the wire frame of a storage frame as one read (30_encoding R116). -/
def lineRxf (f : Frame) : List Line := [.rx (encodeFrame f).bytes]

/-- `START` (30_encoding R116). -/
def lineStart : List Line := [.cmd 0x0100, .devOk, .run]

/-- `SHUTDOWN rcode wcode` (30_encoding R116), at a machine whose write is in flight or not. -/
def lineShutdown (rcode wcode : Byte) (writeInFlight : Bool) : List Line :=
  [.rxErr rcode, .run] ++ (if writeInFlight then [.wrErr wcode, .run] else []) ++ [.cmd 0x0200]

/-- A machine with the commands and answers a program has supplied and no agent has taken yet: an
answer is held until the agent that asked for it is in the state that takes it (D47). -/
structure Bench where
  machine : State
  cmds : List (BitVec 16)
  reads : List ReadAnswer
  writes : List WriteAnswer
  pulls : List (List Frame)
  acks : Nat
  devices : List DeviceAnswer
  deriving DecidableEq, Repr

/-- The machine after these moves; it stays as it is where a move stops. -/
def State.play (s : State) : List Turn → State
  | [] => s
  | t :: ts =>
    match step { s with turns := [t] } with
    | .next s' => s'.play ts
    | _ => s

/-- The control unit's move: a queued command, or its own step. -/
def Bench.cuMove (b : Bench) : Option Bench :=
  match b.cmds with
  | w :: ws => some { b with cmds := ws, machine := b.machine.play [.word (.ctlCmd w)] }
  | [] =>
    match b.machine.deviceOutstanding, b.devices with
    | true, d :: ds => some { b with devices := ds, machine := b.machine.play [.device d, .agent .cu] }
    | _, _ =>
      match selector .cu b.machine with
      | some _ => some { b with machine := b.machine.play [.agent .cu] }
      | none => none

/-- The Reader's move. -/
def Bench.rdMove (b : Bench) : Option Bench :=
  match b.machine.readOutstanding, b.reads with
  | true, r :: rs => some { b with reads := rs, machine := b.machine.play [.read r, .agent .rd] }
  | _, _ =>
    match selector .rd b.machine with
    | none => none
    | some sel =>
      match decode (.stepSel sel), b.machine.dispList[b.machine.dispIdx]? with
      | .instr .rdDispatchExt, some id =>
        match b.acks with
        | 0 => none
        | n + 1 => some { b with acks := n, machine := b.machine.play [.ack id, .agent .rd] }
      | _, _ => some { b with machine := b.machine.play [.agent .rd] }

/-- The Producer's move. -/
def Bench.prMove (b : Bench) : Option Bench :=
  match b.machine.pullOutstanding, b.pulls with
  | true, p :: ps => some { b with pulls := ps, machine := b.machine.play [.pull p, .agent .pr] }
  | _, _ =>
    match selector .pr b.machine with
    | some _ => some { b with machine := b.machine.play [.agent .pr] }
    | none => none

/-- The Transmitter's move. -/
def Bench.txMove (b : Bench) : Option Bench :=
  match b.machine.writeOutstanding, b.writes with
  | true, w :: ws => some { b with writes := ws, machine := b.machine.play [.write w, .agent .tx] }
  | _, _ =>
    match selector .tx b.machine with
    | some _ => some { b with machine := b.machine.play [.agent .tx] }
    | none => none

/-- The move of the first agent that has one, in the order CU, RD, PR, TX (D47). -/
def Bench.move (b : Bench) : Option Bench :=
  if b.machine.faulted then none
  else
    match b.cuMove with
    | some c => some c
    | none =>
      match b.rdMove with
      | some c => some c
      | none =>
        match b.prMove with
        | some c => some c
        | none => b.txMove

/-- Moves until there is none, at most `fuel` of them. -/
def Bench.runFor : Nat → Bench → Bench
  | 0, b => b
  | fuel + 1, b =>
    match b.move with
    | some c => c.runFor fuel
    | none => b

/-- What a line does (30_encoding R115). -/
def Bench.line (fuel : Nat) (b : Bench) : Line → Bench
  | .cmd w => { b with cmds := b.cmds ++ [w] }
  | .devOk => { b with devices := b.devices ++ [.ok] }
  | .devErr => { b with devices := b.devices ++ [.error] }
  | .rx bytes => { b with reads := b.reads ++ [.data bytes] }
  | .rxErr code => { b with reads := b.reads ++ [.error code] }
  | .pull frames => { b with pulls := b.pulls ++ [frames] }
  | .wrOk => { b with writes := b.writes ++ [.ok] }
  | .wrErr code => { b with writes := b.writes ++ [.error code] }
  | .ack => { b with acks := b.acks + 1 }
  | .tick n => { b with machine := b.machine.play [.clock (b.machine.now + n)] }
  | .run => b.runFor fuel

/-- A program's lines in their order. -/
def Bench.program (fuel : Nat) (b : Bench) : List Line → Bench
  | [] => b
  | l :: ls => (b.line fuel l).program fuel ls

end Sys2Proof.Machine
end

