-- ==== Sys2Proof/Tests/Slice0.lean ====
section
/-! SUPPORT. Tests: what WellFormed refuses, the words of the tables decoded, one step per instruction
on the vectors of 95_test_vectors, and for every statement with hypotheses a state that meets them.
Expected values are the vectors' (named in each comment) or read off the tables of 30_encoding. -/

namespace Sys2Proof.Tests

open Sys2Proof.Machine

/-! ### Small states -/

/-- Block reset with the parameters of 95_test_vectors section 7. -/
def base : State := { State.reset with params := ⟨4, 16, 4, 56, 1, 1, 1000, 2, false, 0, false⟩ }

/-- The Reader in state `code`. -/
def rdAt (code : BitVec 3) : State := { base with rdState := code }

/-- The Transmitter in state `code`. -/
def txAt (code : BitVec 4) : State := { base with txState := code }

/-- The Producer in state `code`. -/
def prAt (code : BitVec 2) : State := { base with prState := code }

/-- The control unit in state `code`. -/
def cuAt (code : BitVec 3) : State := { base with ssState := code }

/-- The synchronizer in state `code` inside the frame `85 7F 40 00 00 00 ..`, about to process `x`. -/
def byteAt (code : BitVec 3) (x : Byte) : State :=
  { rdAt RD_PROCESS with
    syncState := code
    syncWork := ⟨0x85, 0x7F, 0x40, 0, 0, 0⟩
    rdBuf := Memory.write Config.unwrittenByte [] 0 x
    rdLen := 1 }

/-- A dispatch of `[45 00 00 00 00 00]` to the Recorders `[3, 0]`, at index `i`. -/
def dispatchAt (i : Nat) : State :=
  { rdAt RD_DISPATCH with dispFrame := ⟨0x45, 0, 0, 0, 0, 0⟩, dispList := [3, 0], dispIdx := i }

/-- The Transmitter about to check `fill` for the frame `[01 02 03 04 05 06]`. -/
def throttleAt (fill : BitVec 6) : State :=
  { txAt TX_THROTTLE with fill := fill, now := 200, buf0 := [(0, ⟨1, 2, 3, 4, 5, 6⟩)], cnt0 := 1 }

/-- A swap that finds the client buffer empty, Player 7 attached. -/
def underrunAt (last : Option Nat) (now : Nat) : State :=
  { txAt TX_SWAP with player := 7, underrunLast := last, now := now }

/-- A session whose Transmitter has failed. -/
def closingAt (rd : BitVec 3) (pr : BitVec 2) : State :=
  { base with
    ssState := SS_OPEN
    rdState := rd
    txState := TX_FAILED
    prState := pr
    recReg := [3, 0] }

/-- The outcome is a next state with property `p`. -/
def nextIs (o : Host.Outcome State Fault Refusal) (p : State → Bool) : Bool :=
  match o with
  | .next t => p t
  | .fault _ => false
  | .refused _ => false

/-! ### WellFormed refuses -/

theorem smoke_status_bit7 : wellFormed (.codecEncode ⟨0x80, 0, 0, 0, 0, 0⟩) = false := by decide

theorem smoke_buttons_bit7 : wellFormed (.codecEncode ⟨0, 0, 0, 0, 0, 0x80⟩) = false := by decide

theorem smoke_marker_status :
    wellFormed (.codecDecode ⟨0x7F, 0, 0, 0, 0, 0, 0⟩) = false := by decide

theorem smoke_marker_p1 :
    wellFormed (.codecDecode ⟨0x80, 0x80, 0, 0, 0, 0, 0⟩) = false := by decide

theorem smoke_marker_p2 :
    wellFormed (.codecDecode ⟨0x80, 0, 0x80, 0, 0, 0, 0⟩) = false := by decide

theorem smoke_marker_p3 :
    wellFormed (.codecDecode ⟨0x80, 0, 0, 0x80, 0, 0, 0⟩) = false := by decide

theorem smoke_marker_p4 :
    wellFormed (.codecDecode ⟨0x80, 0, 0, 0, 0x80, 0, 0⟩) = false := by decide

theorem smoke_marker_p5 :
    wellFormed (.codecDecode ⟨0x80, 0, 0, 0, 0, 0x80, 0⟩) = false := by decide

theorem smoke_marker_p6 :
    wellFormed (.codecDecode ⟨0x80, 0, 0, 0, 0, 0, 0x80⟩) = false := by decide

theorem smoke_wellFormed :
    wellFormed (.codecEncode ⟨0x7F, 0xFF, 0xFF, 0xFF, 0xFF, 0x7F⟩) = true := by decide

/-! ### Words of the tables -/

theorem decode_rxUnsyncHi :
    decode (.rxSel 0b00011010011#11) = .instr (.rxUnsyncHi 0b1010011#7) := by decide

theorem decode_rxUnsyncLo :
    decode (.rxSel 0b00001010011#11) = .instr (.rxUnsyncLo 0b1010011#7) := by decide

theorem decode_rxStatusReadHi :
    decode (.rxSel 0b00111010011#11) = .instr (.rxStatusReadHi 0b1010011#7) := by decide

theorem decode_rxStatusReadLo :
    decode (.rxSel 0b00101010011#11) = .instr (.rxStatusReadLo 0b1010011#7) := by decide

theorem decode_rxP1ReadHi :
    decode (.rxSel 0b01011010011#11) = .instr (.rxP1ReadHi 0b1010011#7) := by decide

theorem decode_rxP1ReadLo :
    decode (.rxSel 0b01001010011#11) = .instr (.rxP1ReadLo 0b1010011#7) := by decide

theorem decode_rxP2ReadHi :
    decode (.rxSel 0b01111010011#11) = .instr (.rxP2ReadHi 0b1010011#7) := by decide

theorem decode_rxP2ReadLo :
    decode (.rxSel 0b01101010011#11) = .instr (.rxP2ReadLo 0b1010011#7) := by decide

theorem decode_rxP3ReadHi :
    decode (.rxSel 0b10011010011#11) = .instr (.rxP3ReadHi 0b1010011#7) := by decide

theorem decode_rxP3ReadLo :
    decode (.rxSel 0b10001010011#11) = .instr (.rxP3ReadLo 0b1010011#7) := by decide

theorem decode_rxP4ReadHi :
    decode (.rxSel 0b10111010011#11) = .instr (.rxP4ReadHi 0b1010011#7) := by decide

theorem decode_rxP4ReadLo :
    decode (.rxSel 0b10101010011#11) = .instr (.rxP4ReadLo 0b1010011#7) := by decide

theorem decode_rxP5ReadHi :
    decode (.rxSel 0b11011010011#11) = .instr (.rxP5ReadHi 0b1010011#7) := by decide

theorem decode_rxP5ReadLo :
    decode (.rxSel 0b11001010011#11) = .instr (.rxP5ReadLo 0b1010011#7) := by decide

theorem decode_openSession :
    decode (.ctlCmd 0b0000000110000111#16) = .instr (.openSession 0b10000111#8) := by decide

theorem decode_closeSession :
    decode (.ctlCmd 0b0000001010000111#16) = .instr (.closeSession 0b10000111#8) := by decide

theorem decode_attachRec :
    decode (.ctlCmd 0b0000001110000111#16) = .instr (.attachRec 0b10000111#8) := by decide

theorem decode_detachRec :
    decode (.ctlCmd 0b0000010010000111#16) = .instr (.detachRec 0b10000111#8) := by decide

theorem decode_attachPlayer :
    decode (.ctlCmd 0b0000010110000111#16) = .instr (.attachPlayer 0b10000111#8) := by decide

theorem decode_detachPlayer :
    decode (.ctlCmd 0b0000011010000111#16) = .instr (.detachPlayer 0b10000111#8) := by decide

theorem decode_readStatus :
    decode (.ctlCmd 0b0000011110000111#16) = .instr (.readStatus 0b10000111#8) := by decide

theorem decode_readRdFailure :
    decode (.ctlCmd 0b0000100010000111#16) = .instr (.readRdFailure 0b10000111#8) := by decide

theorem decode_readTxFailure :
    decode (.ctlCmd 0b0000100110000111#16) = .instr (.readTxFailure 0b10000111#8) := by decide

theorem decode_rdReadData : decode (.stepSel 0b00000100#8) = .instr .rdReadData := by decide

theorem decode_rdReadEmpty : decode (.stepSel 0b00000101#8) = .instr .rdReadEmpty := by decide

theorem decode_rdReadFail : decode (.stepSel 0b00000110#8) = .instr .rdReadFail := by decide

theorem decode_rdByteStep : decode (.stepSel 0b00001000#8) = .instr .rdByteStep := by decide

theorem decode_rdBufDone : decode (.stepSel 0b00001001#8) = .instr .rdBufDone := by decide

theorem decode_rdDispatchExt : decode (.stepSel 0b00001100#8) = .instr .rdDispatchExt := by decide

theorem decode_rdFeedback : decode (.stepSel 0b00001101#8) = .instr .rdFeedback := by decide

theorem decode_rdDispatchEnd : decode (.stepSel 0b00001110#8) = .instr .rdDispatchEnd := by decide

theorem decode_rdSleepDone : decode (.stepSel 0b00010000#8) = .instr .rdSleepDone := by decide

theorem decode_txPreload : decode (.stepSel 0b01000100#8) = .instr .txPreload := by decide

theorem decode_txSwapOk : decode (.stepSel 0b01001000#8) = .instr .txSwapOk := by decide

theorem decode_txSwapUnderrun :
    decode (.stepSel 0b01001001#8) = .instr .txSwapUnderrun := by decide

theorem decode_txUnderrunRetry :
    decode (.stepSel 0b01001100#8) = .instr .txUnderrunRetry := by decide

theorem decode_txDrainEnd : decode (.stepSel 0b01010000#8) = .instr .txDrainEnd := by decide

theorem decode_txHalfPoint : decode (.stepSel 0b01010001#8) = .instr .txHalfPoint := by decide

theorem decode_txNextFrame : decode (.stepSel 0b01010010#8) = .instr .txNextFrame := by decide

theorem decode_txHalfNeed : decode (.stepSel 0b01010100#8) = .instr .txHalfNeed := by decide

theorem decode_txThrottlePass :
    decode (.stepSel 0b01011000#8) = .instr .txThrottlePass := by decide

theorem decode_txThrottleHold :
    decode (.stepSel 0b01011001#8) = .instr .txThrottleHold := by decide

theorem decode_txThrottleRecheck :
    decode (.stepSel 0b01011100#8) = .instr .txThrottleRecheck := by decide

theorem decode_txWriteOk : decode (.stepSel 0b01100000#8) = .instr .txWriteOk := by decide

theorem decode_txWriteFail : decode (.stepSel 0b01100001#8) = .instr .txWriteFail := by decide

theorem decode_prPullIssue : decode (.stepSel 0b10000100#8) = .instr .prPullIssue := by decide

theorem decode_prPullNone : decode (.stepSel 0b10000101#8) = .instr .prPullNone := by decide

theorem decode_prPullDone : decode (.stepSel 0b10001000#8) = .instr .prPullDone := by decide

theorem decode_cuDeviceOpenOk :
    decode (.stepSel 0b11000100#8) = .instr .cuDeviceOpenOk := by decide

theorem decode_cuDeviceOpenFail :
    decode (.stepSel 0b11000101#8) = .instr .cuDeviceOpenFail := by decide

theorem decode_cuStartRd : decode (.stepSel 0b11001000#8) = .instr .cuStartRd := by decide

theorem decode_cuStartTx : decode (.stepSel 0b11001100#8) = .instr .cuStartTx := by decide

/-- E6: `C0 55 15 35 25 28 7F`. -/
theorem decode_codecEncode :
    decode (.wireOut ⟨0b11000000, 0b01010101, 0b00010101, 0b00110101, 0b00100101, 0b00101000, 0b01111111⟩) =
      .instr (.codecEncode ⟨0x40, 0xAA, 0x55, 0xAA, 0x55, 0x7F⟩) := by decide

theorem decode_codecDecode :
    decode (.wireIn ⟨0xC5, 0x01, 0x7F, 0x00, 0x7F, 0x7F, 0x55⟩) =
      .instr (.codecDecode ⟨0xC5, 0x01, 0x7F, 0x00, 0x7F, 0x7F, 0x55⟩) := by decide

theorem decode_reserved_syncState :
    decode (.rxSel 0b11100000000#11) = .rejected .reservedSyncState := by decide

theorem decode_reserved_opcode :
    decode (.ctlCmd 0x0A00#16) = .rejected (.reservedOpcode 0x0A) := by decide

theorem decode_unlisted_selector :
    decode (.stepSel 0x07#8) = .rejected (.unlistedSelector 0x07) := by decide

theorem decode_bad_marker :
    decode (.wireIn ⟨0x05, 0, 0, 0, 0, 0, 0⟩) = .rejected .notAWireFrame := by decide

theorem decode_not_encoder_output :
    decode (.wireOut ⟨0x85, 0, 0, 0, 0, 0x07, 0⟩) = .rejected .notEncoderOutput := by decide

theorem tableWord_stepSel : decodeTableWord 8 0x58 = some .txThrottlePass := by decide

theorem tableWord_ctlCmd : decodeTableWord 16 0x0507 = some (.attachPlayer 0x07) := by decide

/-- E4's wire frame, its status byte the least significant. -/
theorem tableWord_wire :
    decodeTableWord 56 0x1A40670A0D0985 =
      some (.codecEncode ⟨0x05, 0x12, 0x34, 0x56, 0x78, 0x1A⟩) := by decide

/-! ### One step -/

/-- E4. -/
theorem test_encode :
    nextIs (exec (.codecEncode ⟨0x05, 0x12, 0x34, 0x56, 0x78, 0x9A⟩) base)
      (fun t => decide (t.codecWire = ⟨0x85, 0x09, 0x0D, 0x0A, 0x67, 0x40, 0x1A⟩)) = true := by decide

/-- E5. -/
theorem test_encode_high_bits :
    nextIs (exec (.codecEncode ⟨0xFF, 0x80, 0x01, 0x80, 0x01, 0x80⟩) base)
      (fun t => decide (t.codecWire = ⟨0xFF, 0x40, 0x00, 0x30, 0x00, 0x08, 0x00⟩)) = true := by decide

/-- E14. -/
theorem test_decode_p5_low_bits :
    nextIs (exec (.codecDecode ⟨0x80, 0x7F, 0x7F, 0x7F, 0x7F, 0x7F, 0x7F⟩) base)
      (fun t => decide (t.codecFrame = ⟨0x00, 0xFF, 0xFF, 0xFF, 0xFF, 0x7F⟩)) = true := by decide

/-- E16. -/
theorem test_decode_mixed :
    nextIs (exec (.codecDecode ⟨0xC5, 0x01, 0x7F, 0x00, 0x7F, 0x7F, 0x55⟩) base)
      (fun t => decide (t.codecFrame = ⟨0x45, 0x03, 0xFC, 0x07, 0xFF, 0x55⟩)) = true := by decide

/-- X1. -/
theorem test_rxUnsyncHi :
    nextIs (exec (.rxUnsyncHi 0x05) (byteAt UNSYNC 0x85))
      (fun t => decide (t.syncState = STATUS_READ) && decide (t.syncWork.b0 = 0x85) && decide (t.rdPos = 1)) = true := by decide

/-- X2. -/
theorem test_rxUnsyncLo :
    nextIs (exec (.rxUnsyncLo 0x40) (byteAt UNSYNC 0x40))
      (fun t => decide (t.syncState = UNSYNC) && decide (t.rdPos = 1)) = true := by decide

/-- X3. -/
theorem test_rxStatusReadLo :
    nextIs (exec (.rxStatusReadLo 0x7F) (byteAt STATUS_READ 0x7F))
      (fun t => decide (t.syncState = P1_READ) && decide (t.syncWork.b1 = 0x7F)) = true := by decide

/-- X4. -/
theorem test_rxStatusReadHi :
    nextIs (exec (.rxStatusReadHi 0x00) (byteAt STATUS_READ 0x80))
      (fun t => decide (t.syncState = UNSYNC) && decide (t.syncWork.b0 = 0x85)) = true := by decide

/-- S2, its third byte. -/
theorem test_rxP1ReadLo :
    nextIs (exec (.rxP1ReadLo 0x0D) (byteAt P1_READ 0x0D))
      (fun t => decide (t.syncState = P2_READ) && decide (t.syncWork.b2 = 0x0D)) = true := by decide

/-- S3, its third byte. -/
theorem test_rxP1ReadHi :
    nextIs (exec (.rxP1ReadHi 0x0D) (byteAt P1_READ 0x8D))
      (fun t => decide (t.syncState = UNSYNC)) = true := by decide

/-- S2, its fourth byte. -/
theorem test_rxP2ReadLo :
    nextIs (exec (.rxP2ReadLo 0x0A) (byteAt P2_READ 0x0A))
      (fun t => decide (t.syncState = P3_READ) && decide (t.syncWork.b3 = 0x0A)) = true := by decide

/-- 42_synchronizer R153. -/
theorem test_rxP2ReadHi :
    nextIs (exec (.rxP2ReadHi 0x0A) (byteAt P2_READ 0x8A))
      (fun t => decide (t.syncState = UNSYNC)) = true := by decide

/-- S2, its fifth byte. -/
theorem test_rxP3ReadLo :
    nextIs (exec (.rxP3ReadLo 0x67) (byteAt P3_READ 0x67))
      (fun t => decide (t.syncState = P4_READ) && decide (t.syncWork.b4 = 0x67)) = true := by decide

/-- X5. -/
theorem test_rxP3ReadHi :
    nextIs (exec (.rxP3ReadHi 0x00) (byteAt P3_READ 0x80))
      (fun t => decide (t.syncState = UNSYNC) && decide (t.rdState = RD_PROCESS)) = true := by decide

/-- X6. -/
theorem test_rxP4ReadLo :
    nextIs (exec (.rxP4ReadLo 0x07) (byteAt P4_READ 0x07))
      (fun t => decide (t.syncState = P5_READ) && decide (t.syncWork.b5 = 0x07)) = true := by decide

/-- 42_synchronizer R153. -/
theorem test_rxP4ReadHi :
    nextIs (exec (.rxP4ReadHi 0x07) (byteAt P4_READ 0x87))
      (fun t => decide (t.syncState = UNSYNC)) = true := by decide

/-- X7, with the frame of S1. -/
theorem test_rxP5ReadLo :
    nextIs (exec (.rxP5ReadLo 0x00) { byteAt P5_READ 0x00 with recReg := [3, 0] })
      (fun t => decide (t.syncState = UNSYNC) && decide (t.rdState = RD_DISPATCH) && decide (t.dispFrame = ⟨0x05, 0xFF, 0, 0, 0, 0⟩) && decide (t.dispList = [3, 0])) = true := by decide

/-- X8. -/
theorem test_rxP5ReadHi :
    nextIs (exec (.rxP5ReadHi 0x7F) (byteAt P5_READ 0xFF))
      (fun t => decide (t.syncState = UNSYNC) && decide (t.rdState = RD_PROCESS)) = true := by decide

/-- A word that is not the one the state and the byte give is held. -/
theorem test_rx_other_byte_held :
    nextIs (exec (.rxUnsyncHi 0x06) (byteAt UNSYNC 0x85))
      (fun t => decide (t.rdPos = 0)) = true := by decide

/-- X3, as the Reader takes it. -/
theorem test_rdByteStep :
    nextIs (exec .rdByteStep (byteAt STATUS_READ 0x7F))
      (fun t => decide (t.syncState = P1_READ) && decide (t.syncWork.b1 = 0x7F)) = true := by decide

/-- RL1. -/
theorem test_rdReadData :
    nextIs (exec .rdReadData { rdAt RD_READ with envRead := some (.data [0x85, 0x7F]) })
      (fun t => decide (t.rdState = RD_PROCESS) && decide (t.rdLen = 2) && decide (t.rdPos = 0) && decide (t.rdByte 0 = 0x85) && decide (t.rdByte 1 = 0x7F)) = true := by decide

/-- RL7, with 17 bytes for 16. -/
theorem test_rdReadData_too_long :
    nextIs (exec .rdReadData { rdAt RD_READ with envRead := some (.data (List.replicate 17 1)) })
      (fun t => decide (t.faulted = true) && decide (t.rdState = RD_READ)) = true := by decide

/-- RL3, with `RD_IDLE_SLEEP_MS = 2`. -/
theorem test_rdReadEmpty :
    nextIs (exec .rdReadEmpty { rdAt RD_READ with envRead := some (.data []), now := 10 })
      (fun t => decide (t.rdState = RD_SLEEP) && decide (t.rdSleepUntil = 12)) = true := by decide

/-- RL6. -/
theorem test_rdReadFail :
    nextIs (exec .rdReadFail { rdAt RD_READ with envRead := some (.error 0x11) })
      (fun t => decide (t.rdState = RD_FAILED) && decide (t.rdFailValid = true) && decide (t.rdFailureReg = 0x111)) = true := by decide

/-- RL2. -/
theorem test_rdBufDone :
    nextIs (exec .rdBufDone { rdAt RD_PROCESS with rdLen := 2, rdPos := 2, syncState := P1_READ })
      (fun t => decide (t.rdState = RD_READ) && decide (t.syncState = P1_READ)) = true := by decide

/-- RL4. -/
theorem test_rdSleepDone_early :
    nextIs (exec .rdSleepDone { rdAt RD_SLEEP with rdSleepUntil := 15, now := 14 })
      (fun t => decide (t.rdState = RD_SLEEP)) = true := by decide

/-- RL5. -/
theorem test_rdSleepDone :
    nextIs (exec .rdSleepDone { rdAt RD_SLEEP with rdSleepUntil := 15, now := 15 })
      (fun t => decide (t.rdState = RD_READ)) = true := by decide

/-- DS1. -/
theorem test_rdDispatchExt :
    nextIs (exec .rdDispatchExt { dispatchAt 0 with envAck := some 3 })
      (fun t => decide (t.trace = [.recDeliver 3 ⟨0x45, 0, 0, 0, 0, 0⟩]) && decide (t.dispIdx = 1)) = true := by decide

/-- DS2. -/
theorem test_rdDispatchExt_waits :
    nextIs (exec .rdDispatchExt (dispatchAt 0))
      (fun t => decide (t.trace = []) && decide (t.dispIdx = 0)) = true := by decide

/-- DS3. -/
theorem test_rdFeedback :
    nextIs (exec .rdFeedback (dispatchAt 1))
      (fun t => decide (t.fill = 5) && decide (t.dispIdx = 2) && decide (t.trace = [])) = true := by decide

/-- DS4. -/
theorem test_rdDispatchEnd :
    nextIs (exec .rdDispatchEnd (dispatchAt 2))
      (fun t => decide (t.rdState = RD_PROCESS)) = true := by decide

/-- DS5. -/
theorem test_rdDispatchEnd_empty :
    nextIs (exec .rdDispatchEnd { dispatchAt 0 with dispList := [] })
      (fun t => decide (t.rdState = RD_PROCESS)) = true := by decide

/-- 43_transmitter R193's example. -/
theorem test_txPreload :
    nextIs (exec .txPreload (txAt TX_PRELOAD))
      (fun t => decide (t.need = true) && decide (t.txState = TX_SWAP)) = true := by decide

/-- T8d. -/
theorem test_txSwapOk :
    nextIs (exec .txSwapOk { txAt TX_SWAP with cnt1 := 4 })
      (fun t => decide (t.wsel = true) && decide (t.widx = 0) && decide (t.txState = TX_NEXT)) = true := by decide

/-- T8e. -/
theorem test_txSwapOk_locked :
    nextIs (exec .txSwapOk { txAt TX_SWAP with cnt1 := 4, lock := true })
      (fun t => decide (t.txState = TX_SWAP) && decide (t.wsel = false)) = true := by decide

/-- T9. -/
theorem test_txSwapUnderrun :
    nextIs (exec .txSwapUnderrun (underrunAt none 100))
      (fun t => decide (t.trace = [.underrun 7]) && decide (t.underrunLast = some 100) && decide (t.txWaitUntil = 101)) = true := by decide

/-- T11. -/
theorem test_txSwapUnderrun_suppressed :
    nextIs (exec .txSwapUnderrun (underrunAt (some 100) 1099))
      (fun t => decide (t.trace = []) && decide (t.underrunLast = some 100) && decide (t.txWaitUntil = 1100)) = true := by decide

/-- T14. -/
theorem test_txUnderrunRetry :
    nextIs (exec .txUnderrunRetry { txAt TX_UNDERRUN_WAIT with txWaitUntil := 101, now := 101 })
      (fun t => decide (t.need = true) && decide (t.txState = TX_SWAP)) = true := by decide

/-- A client buffer with frames raises no need (43_transmitter R197). -/
theorem test_txUnderrunRetry_ready :
    nextIs (exec .txUnderrunRetry { txAt TX_UNDERRUN_WAIT with cnt1 := 1 })
      (fun t => decide (t.need = false) && decide (t.txState = TX_SWAP)) = true := by decide

/-- T8b. -/
theorem test_txDrainEnd :
    nextIs (exec .txDrainEnd { txAt TX_NEXT with cnt0 := 4, widx := 4, cnt1 := 3 })
      (fun t => decide (t.cnt0 = 0) && decide (t.cnt1 = 3) && decide (t.widx = 0) && decide (t.txState = TX_SWAP)) = true := by decide

/-- T7a. -/
theorem test_txHalfPoint :
    nextIs (exec .txHalfPoint { txAt TX_NEXT with cnt0 := 1 })
      (fun t => decide (t.txState = TX_HALF_NEED)) = true := by decide

/-- T7d. -/
theorem test_txHalfPoint_odd :
    nextIs (exec .txHalfPoint { txAt TX_NEXT with cnt0 := 5, widx := 2 })
      (fun t => decide (t.txState = TX_HALF_NEED)) = true := by decide

/-- T8a. -/
theorem test_txNextFrame :
    nextIs (exec .txNextFrame { txAt TX_NEXT with cnt0 := 8, widx := 5 })
      (fun t => decide (t.txState = TX_THROTTLE)) = true := by decide

/-- T8c. -/
theorem test_txHalfNeed :
    nextIs (exec .txHalfNeed (txAt TX_HALF_NEED))
      (fun t => decide (t.need = true) && decide (t.txState = TX_THROTTLE)) = true := by decide

/-- T2. -/
theorem test_txThrottlePass :
    nextIs (exec .txThrottlePass (throttleAt 56))
      (fun t => decide (t.trace = [.txWrite ⟨0x81, 0x01, 0x00, 0x60, 0x40, 0x28, 0x06⟩]) && decide (t.txState = TX_WRITE_WAIT)) = true := by decide

/-- T3: above the mark nothing is written. -/
theorem test_txThrottlePass_above :
    nextIs (exec .txThrottlePass (throttleAt 57))
      (fun t => decide (t.trace = []) && decide (t.txState = TX_THROTTLE)) = true := by decide

/-- T3. -/
theorem test_txThrottleHold :
    nextIs (exec .txThrottleHold (throttleAt 57))
      (fun t => decide (t.txWaitUntil = 201) && decide (t.txState = TX_THROTTLE_WAIT) && decide (t.trace = [])) = true := by decide

/-- T4. -/
theorem test_txThrottleRecheck_early :
    nextIs (exec .txThrottleRecheck { txAt TX_THROTTLE_WAIT with txWaitUntil := 201, now := 200 })
      (fun t => decide (t.txState = TX_THROTTLE_WAIT)) = true := by decide

/-- T5. -/
theorem test_txThrottleRecheck :
    nextIs (exec .txThrottleRecheck { txAt TX_THROTTLE_WAIT with txWaitUntil := 201, now := 201 })
      (fun t => decide (t.txState = TX_THROTTLE)) = true := by decide

/-- T8f. -/
theorem test_txWriteOk :
    nextIs (exec .txWriteOk { txAt TX_WRITE_WAIT with widx := 3, envWrite := some .ok })
      (fun t => decide (t.widx = 4) && decide (t.txState = TX_NEXT)) = true := by decide

/-- T8g. -/
theorem test_txWriteFail :
    nextIs (exec .txWriteFail { txAt TX_WRITE_WAIT with widx := 3, envWrite := some (.error 0x22) })
      (fun t => decide (t.txState = TX_FAILED) && decide (t.txFailureReg = 0x122) && decide (t.widx = 3)) = true := by decide

/-- PR1. -/
theorem test_prPullIssue :
    nextIs (exec .prPullIssue { prAt PR_WAIT_NEED with need := true, player := 7 })
      (fun t => decide (t.trace = [.pullReq 7 4]) && decide (t.lock = true) && decide (t.prState = PR_PULL_WAIT)) = true := by decide

/-- PR6. -/
theorem test_prPullIssue_no_need :
    nextIs (exec .prPullIssue { prAt PR_WAIT_NEED with player := 7 })
      (fun t => decide (t.trace = []) && decide (t.prState = PR_WAIT_NEED)) = true := by decide

/-- PR2. -/
theorem test_prPullNone :
    nextIs (exec .prPullNone { prAt PR_WAIT_NEED with need := true })
      (fun t => decide (t.need = false) && decide (t.trace = [])) = true := by decide

/-- PR3. -/
theorem test_prPullDone :
    nextIs (exec .prPullDone
        { prAt PR_PULL_WAIT with
          wsel := true
          need := true
          lock := true
          pullMax := 4
          envPull := some [⟨1, 0x10, 0x20, 0x30, 0x40, 0x50⟩, ⟨2, 0x11, 0x21, 0x31, 0x41, 0x51⟩] })
      (fun t => decide (t.cnt0 = 2) && decide (t.slot false 0 = ⟨1, 0x10, 0x20, 0x30, 0x40, 0x50⟩) &&
        decide (t.slot false 1 = ⟨2, 0x11, 0x21, 0x31, 0x41, 0x51⟩) && decide (t.lock = false) && decide (t.need = false)) = true := by decide

/-- PR5. -/
theorem test_prPullDone_too_many :
    nextIs (exec .prPullDone
        { prAt PR_PULL_WAIT with pullMax := 4, envPull := some (List.replicate 5 Frame.zero) })
      (fun t => decide (t.faulted = true)) = true := by decide

/-- K1. -/
theorem test_openSession :
    nextIs (exec (.openSession 0) base)
      (fun t => decide (t.ssState = SS_OPENING) && decide (t.cuBusy = true) && decide (t.trace = [])) = true := by decide

/-- K5. -/
theorem test_openSession_open :
    nextIs (exec (.openSession 0) (cuAt SS_OPEN))
      (fun t => decide (t.trace = [.resp 0x01 0]) && decide (t.misuse = true)) = true := by decide

/-- K2, its first step. -/
theorem test_cuDeviceOpenOk :
    nextIs (exec .cuDeviceOpenOk { cuAt SS_OPENING with cuBusy := true, envDevice := some .ok })
      (fun t => decide (t.ssState = SS_START_RD) && decide (t.trace = [])) = true := by decide

/-- K3. -/
theorem test_cuDeviceOpenFail :
    nextIs (exec .cuDeviceOpenFail { cuAt SS_OPENING with cuBusy := true, envDevice := some .error })
      (fun t => decide (t.trace = [.resp 0x03 0]) && decide (t.ssState = SS_CLOSED) && decide (t.cuBusy = false) && decide (t.misuse = false)) = true := by decide

/-- 44_control R245's example. -/
theorem test_cuStartRd :
    nextIs (exec .cuStartRd (cuAt SS_START_RD))
      (fun t => decide (t.rdState = RD_READ) && decide (t.ssState = SS_START_TX)) = true := by decide

/-- The dispatch registers at the Reader's start: cleared by 42_synchronizer R168, unchanged by the
start column of 10_state R55 (log 25). -/
theorem test_cuStartRd_dispatch :
    let s := { dispatchAt 2 with rdState := RD_STOPPED, ssState := SS_START_RD }
    nextIs (exec .cuStartRd s) (fun t => decide (t.dispList = []) && decide (t.dispIdx = 0)) = true ∧
      nextIs (exec .cuStartRd { s with params := { s.params with startKeepsDispatch := true } })
        (fun t => decide (t.dispList = [3, 0]) && decide (t.dispIdx = 2)) = true := by decide

/-- K2, its last step. -/
theorem test_cuStartTx :
    nextIs (exec .cuStartTx { cuAt SS_START_TX with cuBusy := true, recReg := [3] })
      (fun t => decide (t.trace = [.resp 0x00 0]) && decide (t.ssState = SS_OPEN) && decide (t.cuBusy = false) && decide (t.recReg = [3, 0]) &&
        decide (t.txState = TX_PRELOAD) && decide (t.prState = PR_WAIT_NEED)) = true := by decide

/-- K19. -/
theorem test_closeSession_partial :
    nextIs (exec (.closeSession 0) (closingAt RD_READ PR_WAIT_NEED))
      (fun t => decide (t.trace = [.resp 0x01 0]) && decide (t.txState = TX_STOPPED) && decide (t.prState = PR_STOPPED) && decide (t.recReg = [3]) &&
        decide (t.ssState = SS_OPEN) && decide (t.misuse = true)) = true := by decide

/-- K21. -/
theorem test_closeSession :
    nextIs (exec (.closeSession 0) (closingAt RD_FAILED PR_WAIT_NEED))
      (fun t => decide (t.trace = [.resp 0x00 0]) && decide (t.txState = TX_STOPPED) && decide (t.rdState = RD_STOPPED) && decide (t.ssState = SS_CLOSED)) = true := by decide

/-- K10. -/
theorem test_attachRec :
    nextIs (exec (.attachRec 5) { base with recReg := [0, 3] })
      (fun t => decide (t.trace = [.resp 0x00 0]) && decide (t.recReg = [0, 3, 5])) = true := by decide

/-- K11, with four Recorders of four. -/
theorem test_attachRec_full :
    nextIs (exec (.attachRec 6) { base with recReg := [0, 1, 2, 3, 5] })
      (fun t => decide (t.trace = [.resp 0x04 0]) && decide (t.recReg = [0, 1, 2, 3, 5])) = true := by decide

/-- K13. -/
theorem test_detachRec :
    nextIs (exec (.detachRec 3) { base with recReg := [0, 3, 5] })
      (fun t => decide (t.trace = [.resp 0x00 0]) && decide (t.recReg = [0, 5])) = true := by decide

/-- 44_control R249: the listener cannot be detached. -/
theorem test_detachRec_listener :
    nextIs (exec (.detachRec 0) { base with recReg := [0, 3] })
      (fun t => decide (t.trace = [.resp 0x02 0]) && decide (t.recReg = [0, 3])) = true := by decide

/-- K6. -/
theorem test_attachPlayer_second :
    nextIs (exec (.attachPlayer 9) { base with player := 7 })
      (fun t => decide (t.trace = [.resp 0x01 0]) && decide (t.player = 7) && decide (t.misuse = true)) = true := by decide

/-- 44_control R250. -/
theorem test_attachPlayer :
    nextIs (exec (.attachPlayer 7) base)
      (fun t => decide (t.trace = [.resp 0x00 0]) && decide (t.player = 7)) = true := by decide

/-- K8. -/
theorem test_detachPlayer_other :
    nextIs (exec (.detachPlayer 9) { base with player := 7 })
      (fun t => decide (t.trace = [.resp 0x00 0]) && decide (t.player = 7)) = true := by decide

/-- K9. -/
theorem test_detachPlayer :
    nextIs (exec (.detachPlayer 7) { base with player := 7 })
      (fun t => decide (t.trace = [.resp 0x00 0]) && decide (t.player = 0)) = true := by decide

/-- K22. -/
theorem test_readStatus :
    nextIs (exec (.readStatus 0) { cuAt SS_OPEN with rdState := RD_READ, txState := TX_SWAP, need := true })
      (fun t => decide (t.trace = [.resp 0x00 0x00000425])) = true := by decide

/-- K23. -/
theorem test_readStatus_closed :
    nextIs (exec (.readStatus 0) { base with player := 7, misuse := true })
      (fun t => decide (t.trace = [.resp 0x00 0x070000C0])) = true := by decide

/-- K24. -/
theorem test_readRdFailure :
    nextIs (exec (.readRdFailure 0) { base with rdFailValid := true, rdFailCode := 0x11 })
      (fun t => decide (t.trace = [.resp 0x00 0x00000111])) = true := by decide

/-- K25. -/
theorem test_readTxFailure :
    nextIs (exec (.readTxFailure 0) base)
      (fun t => decide (t.trace = [.resp 0x00 0x00000000])) = true := by decide

/-- K16. -/
theorem test_illegal_operand :
    nextIs (exec (.readStatus 1) base)
      (fun t => decide (t.trace = [.resp 0x02 0]) && decide (t.misuse = false)) = true := by decide

/-- K17, opcode FF. -/
theorem test_reserved_opcode :
    nextIs (step { base with turns := [.word (.ctlCmd 0xFF12)] })
      (fun t => decide (t.trace = [.resp 0x02 0]) && decide (t.turns = [])) = true := by decide

/-- F5: a clock that goes back is found by the step that reads it. -/
theorem test_clock_back :
    nextIs (exec .rdSleepDone { rdAt RD_SLEEP with clockBack := true })
      (fun t => decide (t.faulted = true)) = true := by decide

/-- The word placed is the one the next step runs. -/
theorem test_fetched_word_runs :
    nextIs (step (base.withFetchWord 16 0x0507))
      (fun t => decide (t.player = 7) && decide (t.turns = [])) = true := by decide

/-! ### The hypotheses of the statements are met

One theorem per statement that has hypotheses, named after it; its parts are the statement's clauses
in their order, at the ends of their ranges. -/

/-- Agent `a` moves next. -/
def moving (a : Agent) (s : State) : State := { s with turns := [.agent a] }

/-- An open session with one frame to write, two Recorders and a Player, about to move the
Transmitter. -/
def running : State :=
  moving .tx { throttleAt 56 with
    ssState := SS_OPEN, rdState := RD_READ, prState := PR_WAIT_NEED, recReg := [3, 0], player := 7
    underrunLast := some 100 }

/-- A read of these bytes, about to be processed in synchronizer state `code`. -/
def bytesRead (code : BitVec 3) (bytes : List Byte) : State :=
  { rdAt RD_PROCESS with
    syncState := code
    rdBuf := Memory.writeFrom Config.unwrittenByte [] 0 bytes
    rdLen := bytes.length }

theorem witness_DecodingAnEncodingGivesTheInstruction :
    wellFormed (.attachRec 255) = true ∧ wellFormed (.rxP5ReadLo 0x7F) = true ∧
      wellFormed .cuStartTx = true ∧ wellFormed (.codecEncode ⟨0x7F, 255, 255, 255, 255, 0x7F⟩) = true ∧
      wellFormed (.codecDecode ⟨0x80, 0x7F, 0x7F, 0x7F, 0x7F, 0x7F, 0x7F⟩) = true := by decide

theorem witness_EncodingADecodingGivesTheWord :
    decode (.rxSel 0x6FF) = .instr (.rxP5ReadHi 0x7F) ∧
      decode (.ctlCmd 0x01FF) = .instr (.openSession 0xFF) ∧
      decode (.stepSel 0xCC) = .instr .cuStartTx := by decide

theorem witness_AStepRunsTheSelectedInstruction :
    (∃ s : State, s.faulted = false ∧ s.turns = [.word (.ctlCmd 0x0507)] ∧
        decode (.ctlCmd 0x0507) = .instr (.attachPlayer 7)) ∧
      (∃ s : State, s.faulted = false ∧ s.turns = [.agent .tx] ∧ selector .tx s = some 0x58 ∧
        decode (.stepSel 0x58) = .instr .txThrottlePass) ∧
      ∃ s : State, s.faulted = false ∧ s.turns = [.agent .rd] ∧ selector .rd s = none :=
  ⟨⟨{ base with turns := [.word (.ctlCmd 0x0507)] }, by decide⟩, ⟨running, by decide⟩,
    moving .rd base, by decide⟩

theorem witness_DecodeUnpacksTheFrame :
    (⟨0x80, 0, 0, 0, 0, 0, 0⟩ : WireFrame).markersOk = true ∧
      (⟨0xFF, 0x7F, 0x7F, 0x7F, 0x7F, 0x7F, 0x7F⟩ : WireFrame).markersOk = true := by decide

theorem witness_EncodeAfterDecode :
    (⟨0x80, 0x7F, 0x40, 0, 0, 0x07, 0⟩ : WireFrame).markersOk = true ∧
      (⟨0x7F, 255, 255, 255, 255, 0x7F⟩ : Frame).encodable = true ∧
      encodeFrame ⟨0, 255, 0, 0, 0, 0⟩ = ⟨0x80, 0x7F, 0x40, 0, 0, 0, 0⟩ := by decide

theorem witness_TheFormulasAreTheBitTable :
    (⟨0xFF, 0x7F, 0x7F, 0x7F, 0x7F, 0x7F, 0x7F⟩ : WireFrame).markersOk = true := by decide

theorem witness_AStatusByteIsAccepted :
    ∀ data ∈ [(0x00 : BitVec 7), 0x7F], ∃ s : State,
      s.byteReady ∧ s.syncState = UNSYNC ∧ s.nextByte = statusByte data := by
  intro data _
  refine ⟨byteAt UNSYNC (statusByte data), ?_⟩
  revert data
  decide

theorem witness_AViolatingByteIsDiscarded :
    (∀ code ∈ [STATUS_READ, P1_READ, P2_READ, P3_READ, P4_READ, P5_READ],
        ∀ data ∈ [(0x00 : BitVec 7), 0x7F],
          (byteAt code (statusByte data)).byteReady ∧
            (byteAt code (statusByte data)).syncState = code ∧
            (byteAt code (statusByte data)).nextByte = statusByte data) ∧
      ∀ data ∈ [(0x00 : BitVec 7), 0x7F],
        (byteAt UNSYNC (payloadByte data)).byteReady ∧
          (byteAt UNSYNC (payloadByte data)).syncState = UNSYNC ∧
          (byteAt UNSYNC (payloadByte data)).nextByte = payloadByte data := by decide

theorem witness_APayloadByteIsAccepted :
    ∀ code ∈ [STATUS_READ, P1_READ, P2_READ, P3_READ, P4_READ],
      ∀ data ∈ [(0x00 : BitVec 7), 0x7F],
        (byteAt code (payloadByte data)).byteReady ∧
          (byteAt code (payloadByte data)).nextByte = payloadByte data ∧
          (byteAt code (payloadByte data)).syncState = code := by decide

theorem witness_TheLastPayloadByteCompletesTheFrame :
    ∀ data ∈ [(0x00 : BitVec 7), 0x7F],
      (byteAt P5_READ (payloadByte data)).byteReady ∧
        (byteAt P5_READ (payloadByte data)).syncState = P5_READ ∧
        (byteAt P5_READ (payloadByte data)).nextByte = payloadByte data := by decide

theorem witness_AByteStepIsTheRowItsWordSelects :
    decode (.rxSel (byteAt P1_READ 0x7F).rxSel) = .instr (.rxP1ReadLo 0x7F) ∧
      decode (.rxSel (byteAt UNSYNC 0x80).rxSel) = .instr (.rxUnsyncHi 0) := by decide

theorem witness_AByteStepFollowsTheTransitionTable :
    (∃ s : State, s.byteReady ∧ s.nextByte.msb = true ∧ s.syncState = UNSYNC) ∧
      (∃ s : State, s.byteReady ∧ s.nextByte.msb = true ∧ s.syncState ≠ UNSYNC) ∧
      (∃ s : State, s.byteReady ∧ s.nextByte.msb = false ∧ s.syncState = UNSYNC) ∧
      (∃ s : State, s.byteReady ∧ s.nextByte.msb = false ∧ s.syncState ≠ UNSYNC ∧
        s.syncState ≠ P5_READ) ∧
      ∃ s : State, s.byteReady ∧ s.nextByte.msb = false ∧ s.syncState = P5_READ :=
  ⟨⟨byteAt UNSYNC 0x80, by decide⟩, ⟨byteAt P5_READ 0xFF, by decide⟩,
    ⟨byteAt UNSYNC 0x7F, by decide⟩, ⟨byteAt P4_READ 0x00, by decide⟩,
    byteAt P5_READ 0x7F, by decide⟩

/-- From `UNSYNC` over three skipped bytes, and from inside a frame over a flipped byte. -/
theorem witness_TheNextWellFormedFrameIsDelivered :
    (∃ (s : State) (w : WireFrame), s.ready .rd ∧ s.rdState = RD_PROCESS ∧ s.syncState = UNSYNC ∧
        (∀ x ∈ [(0x40 : Byte), 0, 0x7F], x.msb = false) ∧ w.markersOk = true ∧
        s.bytesAt s.rdPos ([] ++ [0x40, 0, 0x7F] ++ w.bytes) = true ∧
        s.rdPos + ([] ++ [0x40, 0, 0x7F] ++ w.bytes).length ≤ s.rdLen) ∧
      ∃ (s : State) (w : WireFrame), s.ready .rd ∧ s.rdState = RD_PROCESS ∧ s.syncState ≠ UNSYNC ∧
        (0xC0 : Byte).msb = true ∧ w.markersOk = true ∧
        s.bytesAt s.rdPos ([0xC0] ++ [] ++ w.bytes) = true ∧
        s.rdPos + ([0xC0] ++ [] ++ w.bytes).length ≤ s.rdLen :=
  ⟨⟨bytesRead UNSYNC [0x40, 0, 0x7F, 0x80, 0x7F, 0x40, 0, 0, 0, 0],
      ⟨0x80, 0x7F, 0x40, 0, 0, 0, 0⟩, by decide⟩,
    bytesRead P5_READ [0xC0, 0x80, 0x7F, 0x40, 0, 0, 0, 0], ⟨0x80, 0x7F, 0x40, 0, 0, 0, 0⟩,
    by decide⟩

/-- As many bytes as the buffer holds, and one. -/
theorem witness_AReadFillsTheReaderBuffer :
    ∀ bytes ∈ [List.replicate 16 (1 : Byte), [0x85]], ∃ s : State,
      s.ready .rd ∧ s.rdState = RD_READ ∧ s.envRead = some (.data bytes) ∧ bytes ≠ [] ∧
        bytes.length ≤ s.params.rdBufBytes ∧ Memory.wf Config.unwrittenByte s.rdBuf = true := by
  intro bytes _
  refine ⟨{ rdAt RD_READ with envRead := some (.data bytes) }, ?_⟩
  revert bytes
  decide

theorem witness_AnEmptyReadSleepsAndAReadErrorEnds :
    (∃ s : State, s.ready .rd ∧ s.rdState = RD_READ ∧ s.envRead = some (.data []) ∧
        s.clockBack = false) ∧
      ∃ s : State, s.ready .rd ∧ s.rdState = RD_READ ∧ s.envRead = some (.error 0xFF) :=
  ⟨⟨{ rdAt RD_READ with envRead := some (.data []) }, by decide⟩,
    { rdAt RD_READ with envRead := some (.error 0xFF) }, by decide⟩

theorem witness_TheReaderMovesOn :
    (∃ s : State, s.ready .rd ∧ s.rdState = RD_SLEEP ∧ s.clockBack = false ∧
        s.rdSleepUntil ≤ s.now) ∧
      (∃ s : State, s.ready .rd ∧ s.rdState = RD_SLEEP ∧ s.clockBack = false ∧
        s.now < s.rdSleepUntil) ∧
      (∃ s : State, s.ready .rd ∧ s.rdState = RD_PROCESS ∧ s.rdPos = s.rdLen) ∧
      ∃ s : State, s.ready .rd ∧ s.rdState = RD_DISPATCH ∧ s.dispIdx = s.dispList.length :=
  ⟨⟨{ rdAt RD_SLEEP with rdSleepUntil := 15, now := 15 }, by decide⟩,
    ⟨{ rdAt RD_SLEEP with rdSleepUntil := 15, now := 14 }, by decide⟩,
    ⟨rdAt RD_PROCESS, by decide⟩, dispatchAt 2, by decide⟩

theorem witness_AnExternalRecorderIsDelivered :
    (∃ s : State, s.ready .rd ∧ s.rdState = RD_DISPATCH ∧ s.dispList[s.dispIdx]? = some 3 ∧
        s.envAck = some 3) ∧
      ∃ s : State, s.ready .rd ∧ s.rdState = RD_DISPATCH ∧ s.dispList[s.dispIdx]? = some 3 ∧
        s.envAck ≠ some 3 :=
  ⟨⟨{ dispatchAt 0 with envAck := some 3 }, by decide⟩, dispatchAt 0, by decide⟩

theorem witness_TheFeedbackStepSetsFill :
    ∃ s : State, s.ready .rd ∧ s.rdState = RD_DISPATCH ∧ s.dispList[s.dispIdx]? = some 0 :=
  ⟨dispatchAt 1, by decide⟩

theorem witness_ANeedIsRaisedOnlyWhereNoneIsOut :
    ∀ code ∈ [TX_PRELOAD, TX_HALF_NEED], ∀ need ∈ [false, true], ∃ s : State,
      s.ready .tx ∧ s.txState = code ∧ s.need = need := by
  intro code _ need _
  refine ⟨{ txAt code with need := need }, ?_⟩
  revert code need
  decide

theorem witness_ASwapExchangesTheBuffers :
    (∃ s : State, s.ready .tx ∧ s.txState = TX_SWAP ∧ s.lock = false ∧ 0 < s.cnt (!s.wsel)) ∧
      ∃ s : State, s.ready .tx ∧ s.txState = TX_SWAP ∧ s.lock = true :=
  ⟨⟨{ txAt TX_SWAP with cnt1 := 1 }, by decide⟩, { txAt TX_SWAP with lock := true }, by decide⟩

/-- A swap at the very end of the interval; one a millisecond before it, and one with no Player. -/
theorem witness_AnUnderrunIsNotifiedAtMostOncePerInterval :
    (∃ s : State, s.ready .tx ∧ s.txState = TX_SWAP ∧ s.lock = false ∧ s.cnt (!s.wsel) = 0 ∧
        s.clockBack = false ∧ s.player ≠ 0 ∧ s.underrunLast = some 100 ∧
        s.params.underrunMinIntervalMs ≤ (s.now : Int) - 100) ∧
      (∃ s : State, s.ready .tx ∧ s.txState = TX_SWAP ∧ s.lock = false ∧ s.cnt (!s.wsel) = 0 ∧
        s.clockBack = false ∧ s.player ≠ 0 ∧ s.underrunLast = some 100 ∧
        ¬s.params.underrunMinIntervalMs ≤ (s.now : Int) - 100) ∧
      ∃ s : State, s.ready .tx ∧ s.txState = TX_SWAP ∧ s.lock = false ∧ s.cnt (!s.wsel) = 0 ∧
        s.clockBack = false ∧ s.player = 0 :=
  ⟨⟨underrunAt (some 100) 1100, by decide⟩, ⟨underrunAt (some 100) 1099, by decide⟩,
    txAt TX_SWAP, by decide⟩

theorem witness_AnUnderrunIsRetried :
    (∃ s : State, s.ready .tx ∧ s.txState = TX_UNDERRUN_WAIT ∧ s.clockBack = false ∧
        s.txWaitUntil ≤ s.now) ∧
      ∃ s : State, s.ready .tx ∧ s.txState = TX_UNDERRUN_WAIT ∧ s.clockBack = false ∧
        s.now < s.txWaitUntil :=
  ⟨⟨{ txAt TX_UNDERRUN_WAIT with txWaitUntil := 101, now := 101 }, by decide⟩,
    { txAt TX_UNDERRUN_WAIT with txWaitUntil := 101, now := 100 }, by decide⟩

theorem witness_TheMainLoopDecidesTheNextMove :
    (∃ s : State, s.ready .tx ∧ s.txState = TX_NEXT ∧ s.widx = s.cnt s.wsel) ∧
      (∃ s : State, s.ready .tx ∧ s.txState = TX_NEXT ∧ s.widx < s.cnt s.wsel ∧
        s.widx = s.cnt s.wsel / 2) ∧
      ∃ s : State, s.ready .tx ∧ s.txState = TX_NEXT ∧ s.widx < s.cnt s.wsel ∧
        s.widx ≠ s.cnt s.wsel / 2 :=
  ⟨⟨{ txAt TX_NEXT with cnt0 := 4, widx := 4 }, by decide⟩,
    ⟨{ txAt TX_NEXT with cnt0 := 3, widx := 1 }, by decide⟩,
    { txAt TX_NEXT with cnt0 := 4, widx := 3 }, by decide⟩

theorem witness_AWriteIssuesAtOrBelowTheMark :
    (∃ s : State, s.ready .tx ∧ s.txState = TX_THROTTLE ∧ s.fill.toNat ≤ s.params.hwm.toNat ∧
        s.widx < s.params.txBufFrames) ∧
      ∃ s : State, s.ready .tx ∧ s.txState = TX_THROTTLE ∧ s.params.hwm.toNat < s.fill.toNat :=
  ⟨⟨{ throttleAt 56 with widx := 3 }, by decide⟩, throttleAt 57, by decide⟩

theorem witness_AboveTheMarkTheLoopWaits :
    (∃ s : State, s.ready .tx ∧ s.clockBack = false ∧ s.txState = TX_THROTTLE ∧
        s.params.hwm.toNat < s.fill.toNat) ∧
      (∃ s : State, s.ready .tx ∧ s.clockBack = false ∧ s.txState = TX_THROTTLE_WAIT ∧
        s.txWaitUntil ≤ s.now) ∧
      ∃ s : State, s.ready .tx ∧ s.clockBack = false ∧ s.txState = TX_THROTTLE_WAIT ∧
        s.now < s.txWaitUntil :=
  ⟨⟨throttleAt 57, by decide⟩,
    ⟨{ txAt TX_THROTTLE_WAIT with txWaitUntil := 201, now := 201 }, by decide⟩,
    { txAt TX_THROTTLE_WAIT with txWaitUntil := 201, now := 200 }, by decide⟩

theorem witness_AWriteEndsOkOrEndsTheMainLoop :
    (∃ s : State, s.ready .tx ∧ s.txState = TX_WRITE_WAIT ∧ s.envWrite = some .ok) ∧
      ∃ s : State, s.ready .tx ∧ s.txState = TX_WRITE_WAIT ∧ s.envWrite = some (.error 0) :=
  ⟨⟨{ txAt TX_WRITE_WAIT with envWrite := some .ok }, by decide⟩,
    { txAt TX_WRITE_WAIT with envWrite := some (.error 0) }, by decide⟩

theorem witness_ANeedIsPulledOrMetWithNothing :
    (∃ s : State, s.ready .pr ∧ s.prState = PR_WAIT_NEED ∧ s.need = true ∧ s.player ≠ 0) ∧
      (∃ s : State, s.ready .pr ∧ s.prState = PR_WAIT_NEED ∧ s.need = true ∧ s.player = 0) ∧
      ∃ s : State, s.ready .pr ∧ s.prState = PR_WAIT_NEED ∧ s.need = false :=
  ⟨⟨{ prAt PR_WAIT_NEED with need := true, player := 255 }, by decide⟩,
    ⟨{ prAt PR_WAIT_NEED with need := true }, by decide⟩, prAt PR_WAIT_NEED, by decide⟩

/-- A full buffer of frames, and a pull answered with none. -/
theorem witness_APullFillsTheClientBuffer :
    ∀ frames ∈ [List.replicate 4 Frame.zero, []], ∃ s : State,
      s.ready .pr ∧ s.prState = PR_PULL_WAIT ∧ s.envPull = some frames ∧
        frames.length ≤ s.pullMax ∧
        s.cnt (!s.wsel) + frames.length ≤ s.params.txBufFrames ∧
        Memory.wf Config.unwrittenFrame (s.buf (!s.wsel)) = true := by
  intro frames _
  refine ⟨{ prAt PR_PULL_WAIT with pullMax := 4, envPull := some frames }, ?_⟩
  revert frames
  decide

theorem witness_OpenAsksForTheDevice :
    (∃ s : State, s.commandReady ∧ s.ssState = SS_CLOSED) ∧
      (∃ s : State, s.commandReady ∧ s.ssState ≠ SS_CLOSED) ∧
      (∃ s : State, s.ready .cu ∧ s.ssState = SS_OPENING ∧ s.envDevice = some .ok) ∧
      ∃ s : State, s.ready .cu ∧ s.ssState = SS_OPENING ∧ s.envDevice = some .error :=
  ⟨⟨base, by decide⟩, ⟨cuAt SS_OPEN, by decide⟩,
    ⟨{ cuAt SS_OPENING with cuBusy := true, envDevice := some .ok }, by decide⟩,
    { cuAt SS_OPENING with cuBusy := true, envDevice := some .error }, by decide⟩

/-- The Reader's start under either reading of log 25; the Transmitter's with the listener to be
registered, and with it registered already. -/
theorem witness_TheLoopsAreStarted :
    (∃ s : State, s.ready .cu ∧ s.ssState = SS_START_RD ∧ s.params.startKeepsDispatch = false) ∧
      (∃ s : State, s.ready .cu ∧ s.ssState = SS_START_RD ∧ s.params.startKeepsDispatch = true) ∧
      (∃ s : State, s.ready .cu ∧ s.ssState = SS_START_TX ∧ 0 ∉ s.recReg) ∧
      ∃ s : State, s.ready .cu ∧ s.ssState = SS_START_TX ∧ 0 ∈ s.recReg :=
  ⟨⟨cuAt SS_START_RD, by decide⟩,
    ⟨{ cuAt SS_START_RD with params := { base.params with startKeepsDispatch := true } }, by decide⟩,
    ⟨cuAt SS_START_TX, by decide⟩,
    { cuAt SS_START_TX with recReg := [0] }, by decide⟩

/-- In the second clause the Transmitter runs, or has failed with a pull outstanding; in the last two
it has failed, or is stopped already. -/
theorem witness_CloseClosesTheTransmitterThenTheReader :
    (∃ s : State, s.commandReady ∧ s.ssState = SS_CLOSED) ∧
      (∃ s : State, s.commandReady ∧ s.ssState ≠ SS_CLOSED ∧ s.transmitterInUse ∧
        s.txRunning = true) ∧
      (∃ s : State, s.commandReady ∧ s.ssState ≠ SS_CLOSED ∧ s.transmitterInUse ∧
        s.txState = TX_FAILED ∧ s.prState = PR_PULL_WAIT) ∧
      (∃ s : State, s.commandReady ∧ s.ssState ≠ SS_CLOSED ∧ ¬s.transmitterInUse ∧
        s.rdRunning = true) ∧
      (∃ s : State, s.commandReady ∧ s.ssState ≠ SS_CLOSED ∧ ¬s.transmitterInUse ∧
        s.rdRunning = false ∧ s.txState = TX_FAILED) ∧
      ∃ s : State, s.commandReady ∧ s.ssState ≠ SS_CLOSED ∧ ¬s.transmitterInUse ∧
        s.rdRunning = false ∧ s.txState = TX_STOPPED :=
  ⟨⟨base, by decide⟩, ⟨running, by decide⟩, ⟨closingAt RD_FAILED PR_PULL_WAIT, by decide⟩,
    ⟨closingAt RD_READ PR_WAIT_NEED, by decide⟩, ⟨closingAt RD_FAILED PR_WAIT_NEED, by decide⟩,
    { cuAt SS_OPEN with rdState := RD_FAILED }, by decide⟩

theorem witness_RecordersAreAttachedAndDetached :
    (∃ s : State, s.commandReady ∧ (255 : Byte) ∈ s.recReg) ∧
      (∃ s : State, s.commandReady ∧ (255 : Byte) ∉ s.recReg ∧
        (s.recReg.filter (· ≠ 0)).length = s.params.maxRecorders) ∧
      ∃ s : State, s.commandReady ∧ (255 : Byte) ∉ s.recReg ∧
        (s.recReg.filter (· ≠ 0)).length ≠ s.params.maxRecorders :=
  ⟨⟨{ base with recReg := [0, 255] }, by decide⟩, ⟨{ base with recReg := [0, 1, 2, 3, 5] }, by decide⟩,
    { base with recReg := [0, 1, 2, 3] }, by decide⟩

theorem witness_OnePlayerIsAttached :
    (∃ s : State, s.commandReady ∧ s.player = 0) ∧
      (∃ s : State, s.commandReady ∧ s.player ≠ 0 ∧ s.player = 255) ∧
      ∃ s : State, s.commandReady ∧ s.player ≠ 0 ∧ s.player ≠ 255 :=
  ⟨⟨base, by decide⟩, ⟨{ base with player := 255 }, by decide⟩, { base with player := 1 }, by decide⟩

theorem witness_TheRegistersRead :
    ∃ s : State, s.commandReady ∧ s.rdFailValid = true ∧ s.txFailValid = false :=
  ⟨{ base with rdState := RD_FAILED, rdFailValid := true, rdFailCode := 0xFF }, by decide⟩

theorem witness_IllegalCommandsChangeNothing :
    ∀ opcode ∈ [(0x00 : Byte), 0x0A, 0xFF], ∃ s : State,
      s.commandReady ∧ (opcode = 0 ∨ 0x0A ≤ opcode) ∧
        s.turns = [.word (.ctlCmd (opcode ++ (0xFF : Byte)))] := by
  intro opcode _
  refine ⟨{ base with turns := [.word (.ctlCmd (opcode ++ (0xFF : Byte)))] }, ?_⟩
  revert opcode
  decide

theorem witness_CommandsDuringAnOpenAreMisuse :
    ∀ opcode ∈ [(0x00 : Byte), 0x0A, 0xFF], ∃ s : State,
      s.ready .cu ∧ s.cuBusy = true ∧ (opcode = 0 ∨ 0x0A ≤ opcode) ∧
        s.turns = [.word (.ctlCmd (opcode ++ (0xFF : Byte)))] := by
  intro opcode _
  refine ⟨{ cuAt SS_OPENING with
    cuBusy := true, turns := [.word (.ctlCmd (opcode ++ (0xFF : Byte)))] }, ?_⟩
  revert opcode
  decide

/-- For each answer, a state that takes it and one that does not. -/
theorem witness_AnswersNeedARequest :
    (∃ s t : State, s.faulted = false ∧ t.faulted = false ∧ s.turns = [.read (.data [])] ∧
        t.turns = s.turns ∧ s.rdState = RD_READ ∧ s.envRead = none ∧ t.rdState ≠ RD_READ) ∧
      (∃ s t : State, s.faulted = false ∧ t.faulted = false ∧ s.turns = [.write .ok] ∧
        t.turns = s.turns ∧ s.txState = TX_WRITE_WAIT ∧ s.envWrite = none ∧
        t.txState ≠ TX_WRITE_WAIT) ∧
      (∃ s t : State, s.faulted = false ∧ t.faulted = false ∧ s.turns = [.pull []] ∧
        t.turns = s.turns ∧ s.prState = PR_PULL_WAIT ∧ s.envPull = none ∧
        t.prState ≠ PR_PULL_WAIT) ∧
      (∃ s t : State, s.faulted = false ∧ t.faulted = false ∧ s.turns = [.ack 3] ∧
        t.turns = s.turns ∧ s.rdState = RD_DISPATCH ∧ s.dispList[s.dispIdx]? = some 3 ∧
        s.envAck = none ∧ t.rdState = RD_DISPATCH ∧ t.dispList[t.dispIdx]? ≠ some 3) ∧
      ∃ s t : State, s.faulted = false ∧ t.faulted = false ∧ s.turns = [.device .ok] ∧
        t.turns = s.turns ∧ s.ssState = SS_OPENING ∧ s.envDevice = none ∧
        t.ssState ≠ SS_OPENING :=
  ⟨⟨{ rdAt RD_READ with turns := [.read (.data [])] },
      { rdAt RD_FAILED with turns := [.read (.data [])] }, by decide⟩,
    ⟨{ txAt TX_WRITE_WAIT with turns := [.write .ok] },
      { txAt TX_THROTTLE with turns := [.write .ok] }, by decide⟩,
    ⟨{ prAt PR_PULL_WAIT with turns := [.pull []] },
      { prAt PR_WAIT_NEED with turns := [.pull []] }, by decide⟩,
    ⟨{ dispatchAt 0 with turns := [.ack 3] }, { dispatchAt 1 with turns := [.ack 3] }, by decide⟩,
    { cuAt SS_OPENING with turns := [.device .ok] }, { cuAt SS_OPEN with turns := [.device .ok] },
    by decide⟩

/-- Each value one past its range. -/
theorem witness_ValuesOutOfRangeAreModelFaults :
    (∃ s : State, s.ready .rd ∧ s.rdState = RD_READ ∧
        s.envRead = some (.data (List.replicate 17 0)) ∧ s.params.rdBufBytes < 17) ∧
      (∃ s : State, s.ready .pr ∧ s.prState = PR_PULL_WAIT ∧
        s.envPull = some (List.replicate 5 Frame.zero) ∧ s.pullMax < 5) ∧
      (∃ s : State, s.ready .pr ∧ s.prState = PR_PULL_WAIT ∧ s.envPull = some [Frame.zero] ∧
        1 ≤ s.pullMax ∧ s.params.txBufFrames < s.cnt (!s.wsel) + 1) ∧
      ∃ s : State, s.ready .tx ∧ s.txState = TX_THROTTLE ∧ s.fill ≤ s.params.hwm ∧
        s.params.txBufFrames ≤ s.widx :=
  ⟨⟨{ rdAt RD_READ with envRead := some (.data (List.replicate 17 0)) }, by decide⟩,
    ⟨{ prAt PR_PULL_WAIT with pullMax := 4, envPull := some (List.replicate 5 Frame.zero) },
      by decide⟩,
    ⟨{ prAt PR_PULL_WAIT with pullMax := 1, cnt1 := 4, envPull := some [Frame.zero] }, by decide⟩,
    { throttleAt 56 with widx := 4 }, by decide⟩

theorem witness_AClockGoneBackIsAModelFault :
    (∃ s : State, s.faulted = false ∧ s.turns = [.clock 9] ∧ 9 < s.now) ∧
      (∃ s : State, s.faulted = false ∧ s.clockBack = true ∧ s.reservedCode .rd = false ∧
        s.rdState = RD_READ ∧ s.envRead = some (.data [])) ∧
      (∃ s : State, s.faulted = false ∧ s.clockBack = true ∧ s.reservedCode .rd = false ∧
        s.rdState = RD_SLEEP) ∧
      (∃ s : State, s.faulted = false ∧ s.clockBack = true ∧ s.reservedCode .tx = false ∧
        s.txState = TX_SWAP ∧ s.lock = false ∧ s.cnt (!s.wsel) = 0) ∧
      (∃ s : State, s.faulted = false ∧ s.clockBack = true ∧ s.reservedCode .tx = false ∧
        s.txState = TX_UNDERRUN_WAIT) ∧
      (∃ s : State, s.faulted = false ∧ s.clockBack = true ∧ s.reservedCode .tx = false ∧
        s.txState = TX_THROTTLE ∧ s.params.hwm < s.fill) ∧
      ∃ s : State, s.faulted = false ∧ s.clockBack = true ∧ s.reservedCode .tx = false ∧
        s.txState = TX_THROTTLE_WAIT :=
  ⟨⟨{ base with now := 10, turns := [.clock 9] }, by decide⟩,
    ⟨{ rdAt RD_READ with clockBack := true, envRead := some (.data []) }, by decide⟩,
    ⟨{ rdAt RD_SLEEP with clockBack := true }, by decide⟩,
    ⟨{ txAt TX_SWAP with clockBack := true }, by decide⟩,
    ⟨{ txAt TX_UNDERRUN_WAIT with clockBack := true }, by decide⟩,
    ⟨{ throttleAt 57 with clockBack := true }, by decide⟩,
    { txAt TX_THROTTLE_WAIT with clockBack := true }, by decide⟩

theorem witness_ReservedCodesAreModelFaults :
    (∃ s : State, s.faulted = false ∧ 6 ≤ s.rdState.toNat) ∧
      (∃ s : State, s.faulted = false ∧ s.syncState.toNat = 7) ∧
      instrAgent .rdBufDone = some .rd ∧
      (∃ s : State, s.faulted = false ∧ s.txState.toNat = 10) ∧ instrAgent .txSwapOk = some .tx ∧
      (∃ s : State, s.faulted = false ∧ s.prState.toNat = 3) ∧
      instrAgent .prPullNone = some .pr ∧
      (∃ s : State, s.faulted = false ∧ s.ssState.toNat = 5) ∧
      instrAgent (.readStatus 0) = some .cu :=
  ⟨⟨rdAt 6, by decide⟩, ⟨byteAt 7 0, by decide⟩, by decide, ⟨txAt 10, by decide⟩, by decide,
    ⟨prAt 3, by decide⟩, by decide, ⟨cuAt 5, by decide⟩, by decide⟩

theorem witness_AFaultedRunHasNoStep :
    (∃ s : State, s.faulted = true) ∧ instrAgent .txPreload = some .tx :=
  ⟨⟨{ base with faulted := true }, by decide⟩, by decide⟩

theorem witness_AStepNotEnabledIsHeld :
    ∃ s : State, instrAgent .txThrottlePass = some .tx ∧ encode .txThrottlePass = .stepSel 0x58 ∧
      s.ready .tx ∧ selector .tx s ≠ some 0x58 :=
  ⟨throttleAt 57, by decide⟩

/-- The step that is enabled changes something; the other row of its state does not. -/
theorem witness_OneStepPerAgentIsEnabled :
    ∃ s t : State, s.ready .tx ∧ instrAgent .txThrottlePass = some .tx ∧
      encode .txThrottlePass = .stepSel 0x58 ∧ exec .txThrottlePass s = .next t ∧ t ≠ s :=
  ⟨throttleAt 56, _, by decide, rfl, rfl, rfl, by decide⟩

theorem witness_EveryWriteIsIssuedAtOrBelowTheMark :
    nextIs (step running)
      (fun t => decide (t.trace = running.trace ++ [.txWrite ⟨0x81, 0x01, 0x00, 0x60, 0x40, 0x28, 0x06⟩]))
      = true := by decide

theorem witness_NotificationsAreApart :
    nextIs (step (moving .tx (underrunAt (some 100) 1100)))
        (fun t => decide (t.trace = [.underrun 7])) = true ∧
      nextIs (step (moving .tx (underrunAt (some 100) 1099)))
        (fun t => decide (t.trace = [] ∧ t.underrunLast = some 100)) = true := by decide

/-- For each of the fields, in the statement's order, a step that changes it. -/
theorem witness_FieldsHaveTheirOwners :
    nextIs (exec .txPreload (txAt TX_PRELOAD)) (fun t => t.need) = true ∧
      nextIs (exec .prPullNone { prAt PR_WAIT_NEED with need := true }) (fun t => !t.need) = true ∧
      nextIs (exec .prPullIssue { prAt PR_WAIT_NEED with need := true, player := 7 })
        (fun t => t.lock) = true ∧
      nextIs (exec .rdFeedback (dispatchAt 1)) (fun t => decide (t.fill ≠ (dispatchAt 1).fill)) = true ∧
      nextIs (exec (.attachRec 1) base) (fun t => decide (t.recReg ≠ base.recReg)) = true ∧
      nextIs (exec .prPullDone
          { prAt PR_PULL_WAIT with pullMax := 4, envPull := some [⟨1, 2, 3, 4, 5, 6⟩] })
        (fun t => decide (t.buf1 ≠ [])) = true ∧
      nextIs (exec .txSwapOk { txAt TX_SWAP with cnt1 := 1 }) (fun t => t.wsel) = true ∧
      nextIs (exec .cuStartRd (cuAt SS_START_RD)) (fun t => decide (t.rdState ≠ RD_STOPPED)) = true ∧
      nextIs (exec .rdReadData { rdAt RD_READ with envRead := some (.data [0x85]) })
        (fun t => decide (t.rdBuf ≠ [])) = true ∧
      nextIs (exec .cuStartTx (cuAt SS_START_TX))
        (fun t => decide (t.txState ≠ TX_STOPPED ∧ t.prState ≠ PR_STOPPED)) = true := by decide

theorem witness_TheDispatchRegistersAreDeadOutsideADispatch :
    (cuAt SS_START_RD).rdState ≠ RD_DISPATCH ∧
      nextIs (step (moving .cu (cuAt SS_START_RD))) (fun t => decide (t.rdState = RD_READ)) = true ∧
      (byteAt P5_READ 0x00).rdState ≠ RD_DISPATCH ∧
      nextIs (step (moving .rd (byteAt P5_READ 0x00))) (fun t => decide (t.rdState = RD_DISPATCH))
        = true := by decide

theorem witness_WhatNoStepUndoes :
    nextIs (step { base with misuse := true, turns := [.word (.ctlCmd 0x0200)] })
      (fun t => decide (t.trace = [.resp 0x01 0])) = true := by decide

/-- A running session that keeps every part of the invariant and has a next state: the statements
StateCodesStayLegal, StoresStayInRange, TheRegistryStaysBounded, TheSessionStaysConsistent,
TheHandshakeStaysConsistent, FailureValuesAndWorkingBytesStayConsistent and
EmittedEventsStayWellFormed. -/
theorem witness_the_invariants :
    running.invariant ∧ nextIs (step running) (fun t => decide (t ≠ running)) = true :=
  ⟨⟨by decide, by decide, by decide, by decide, by decide, by decide, by decide, by decide,
    by decide⟩, by decide⟩

end Sys2Proof.Tests
end

section
/-! PROOFS. The registers the control port reads (10_state R48 to R50, R252 to R254) and the state
after block reset (10_state R55, 70_reset R321). -/

namespace Sys2Proof.Machine

variable (s : State)

/-! ### Bits and slices of a register put together from flags and fields -/

theorem getLsbD_bitAt {i j : Nat} (b : Bool) (hj : j < 32) :
    (bitAt i b).getLsbD j = (decide (j = i) && b) := by
  cases b with
  | false => simp [bitAt]
  | true =>
    have hi : j = i ↔ ¬j < i ∧ j - i = 0 := by omega
    simp [bitAt, hj, hi, ← decide_not]

theorem getLsbD_fieldAt {w lo j : Nat} (x : BitVec w) (hj : j < 32) :
    (x.setWidth 32 <<< lo).getLsbD j = (decide (lo ≤ j) && x.getLsbD (j - lo)) := by
  simp [hj, ← decide_not]

/-- A flag does not show in a slice that leaves out its bit. -/
theorem extractLsb'_bitAt {i lo len : Nat} (b : Bool) (hin : lo + len ≤ 32)
    (hout : i < lo ∨ lo + len ≤ i) : (bitAt i b).extractLsb' lo len = 0 := by
  ext j hj
  rw [BitVec.getElem_extractLsb', getLsbD_bitAt b (by omega)]
  simp [show lo + j ≠ i by omega]

/-- The slice at a field's own place is the field. -/
theorem extractLsb'_fieldAt_self {w lo : Nat} (x : BitVec w) (hin : lo + w ≤ 32) :
    (x.setWidth 32 <<< lo).extractLsb' lo w = x := by
  ext j hj
  rw [BitVec.getElem_extractLsb', getLsbD_fieldAt x (by omega)]
  simp [hj]

/-- A field does not show in a slice that does not meet it. -/
theorem extractLsb'_fieldAt_apart {w off lo len : Nat} (x : BitVec w) (hin : lo + len ≤ 32)
    (hout : off + w ≤ lo ∨ lo + len ≤ off) : (x.setWidth 32 <<< off).extractLsb' lo len = 0 := by
  ext j hj
  rw [BitVec.getElem_extractLsb', getLsbD_fieldAt x (by omega)]
  obtain h | h := hout
  · simp [BitVec.getLsbD_of_ge x (lo + j - off) (by omega)]
  · simp [show ¬off ≤ lo + j by omega]

/-! ### The computed flags in the numbers of the codes -/

/-- A register holds a code when its number is the code's. -/
theorem decide_toNat_eq_code {w n : Nat} {x code : BitVec w} (hn : code.toNat = n) :
    decide (x.toNat = n) = decide (x = code) := by
  simp [← BitVec.toNat_inj, hn]

/-- `rd_running` as the range of codes of 10_state R25. -/
theorem State.rdRunning_eq_decide :
    s.rdRunning = decide (1 ≤ s.rdState.toNat ∧ s.rdState.toNat ≤ 4) := by
  rw [Bool.eq_iff_iff, decide_eq_true_iff, State.rdRunning_iff]
  generalize s.rdState = code
  revert code
  decide

/-- `tx_running` as the range of codes of 10_state R37. -/
theorem State.txRunning_eq_decide :
    s.txRunning = decide (1 ≤ s.txState.toNat ∧ s.txState.toNat ≤ 8) := by
  rw [Bool.eq_iff_iff, decide_eq_true_iff, State.txRunning_iff]
  rfl

/-! ### The STATUS register -/

/-- Bits 7:0 of STATUS are its flags; the fields stand above them (10_state R48). -/
theorem State.getLsbD_statusReg {j : Nat} (hj : j < 8) :
    s.statusReg.getLsbD j =
      (decide (j = 0) && s.rdRunning || decide (j = 1) && decide (s.rdState = RD_FAILED) ||
        decide (j = 2) && s.txRunning || decide (j = 3) && decide (s.txState = TX_FAILED) ||
        decide (j = 4) && decide (s.prState = PR_PULL_WAIT) || decide (j = 5) && s.need ||
        decide (j = 6) && decide (s.player ≠ 0) || decide (j = 7) && s.misuse) := by
  have hin : j < 32 := by omega
  simp only [State.statusReg, BitVec.getLsbD_or, getLsbD_bitAt _ hin, getLsbD_fieldAt _ hin]
  simp [show ¬8 ≤ j by omega, show ¬16 ≤ j by omega, show ¬24 ≤ j by omega]

/-- The flags of STATUS, with the states given by the numbers of their codes (10_state R48). -/
theorem State.statusReg_flags :
    s.statusReg.getLsbD 0 = decide (1 ≤ s.rdState.toNat ∧ s.rdState.toNat ≤ 4) ∧
      s.statusReg.getLsbD 1 = decide (s.rdState.toNat = 5) ∧
      s.statusReg.getLsbD 2 = decide (1 ≤ s.txState.toNat ∧ s.txState.toNat ≤ 8) ∧
      s.statusReg.getLsbD 3 = decide (s.txState.toNat = 9) ∧
      s.statusReg.getLsbD 4 = decide (s.prState.toNat = 2) ∧
      s.statusReg.getLsbD 5 = s.need ∧
      s.statusReg.getLsbD 6 = decide (s.player ≠ 0) ∧
      s.statusReg.getLsbD 7 = s.misuse := by
  have hrd : decide (s.rdState.toNat = 5) = decide (s.rdState = RD_FAILED) :=
    decide_toNat_eq_code rfl
  have htx : decide (s.txState.toNat = 9) = decide (s.txState = TX_FAILED) :=
    decide_toNat_eq_code rfl
  have hpr : decide (s.prState.toNat = 2) = decide (s.prState = PR_PULL_WAIT) :=
    decide_toNat_eq_code rfl
  rw [← s.rdRunning_eq_decide, ← s.txRunning_eq_decide, hrd, htx, hpr]
  refine ⟨?_, ?_, ?_, ?_, ?_, ?_, ?_, ?_⟩ <;> rw [s.getLsbD_statusReg (by decide)] <;> simp

/-- A slice of STATUS above its flags is what the three fields show there. -/
theorem State.extractLsb'_statusReg {lo len : Nat} (hlo : 8 ≤ lo) (hin : lo + len ≤ 32) :
    s.statusReg.extractLsb' lo len =
      (s.ssState.setWidth 32 <<< 8).extractLsb' lo len |||
        (s.fill.setWidth 32 <<< 16).extractLsb' lo len |||
        (s.player.setWidth 32 <<< 24).extractLsb' lo len := by
  have flag {i : Nat} (b : Bool) (hi : i < 8) : (bitAt i b).extractLsb' lo len = 0 :=
    extractLsb'_bitAt b hin (.inl (by omega))
  simp [State.statusReg, BitVec.extractLsb'_or, flag]

/-- The fields of STATUS above its flags, and the reserved bits between them (10_state R48). -/
theorem State.statusReg_fields :
    s.statusReg.extractLsb' 8 3 = s.ssState ∧ s.statusReg.extractLsb' 11 5 = 0#5 ∧
      s.statusReg.extractLsb' 16 6 = s.fill ∧ s.statusReg.extractLsb' 22 2 = 0#2 ∧
      s.statusReg.extractLsb' 24 8 = s.player := by
  simp [State.extractLsb'_statusReg, extractLsb'_fieldAt_self, extractLsb'_fieldAt_apart]

/-! ### The failure registers -/

/-- A failure register is its valid bit above its code, which shows only where the bit is set. -/
theorem failureReg_eq (valid : Bool) (code : Byte) :
    failureReg valid code =
      bitAt 8 valid ||| (if valid then code else 0).setWidth 32 <<< 0 := by
  cases valid <;> simp [failureReg, bitAt]

/-- The parts of a failure register (10_state R49, R50). -/
theorem failureReg_fields (valid : Bool) (code : Byte) :
    (failureReg valid code).extractLsb' 0 8 = (if valid then code else 0) ∧
      (failureReg valid code).getLsbD 8 = valid ∧
      (failureReg valid code).extractLsb' 9 23 = 0#23 := by
  rw [failureReg_eq]
  refine ⟨?_, ?_, ?_⟩
  · rw [BitVec.extractLsb'_or, extractLsb'_bitAt _ (by decide) (by decide),
      extractLsb'_fieldAt_self _ (by decide)]
    exact BitVec.zero_or
  · rw [BitVec.getLsbD_or, getLsbD_bitAt _ (by decide), getLsbD_fieldAt _ (by decide),
      BitVec.getLsbD_of_ge _ _ (by decide)]
    simp
  · rw [BitVec.extractLsb'_or, extractLsb'_bitAt _ (by decide) (by decide),
      extractLsb'_fieldAt_apart _ (by decide) (by decide)]
    rfl

/-! ### The three register reads -/

/-- A legal register read is answered OK with the register's value, and that response is all that
changes. -/
theorem takeCommand_respond_ok {legal : Bool} {value : State → BitVec 32} {s : State}
    (h : s.commandReady) (hl : legal = true) :
    takeCommand legal (fun s => s.respond RESP_OK (value s)) s =
      .next (s.after (.resp 0x00 (value s))) := by
  obtain ⟨⟨hf, hr⟩, hb⟩ := h
  exact takeCommand_legal hf hr hb hl

/-! ### Block reset -/

/-- At block reset no agent's condition holds, and no state register holds a reserved code: the
loops are stopped and the session is closed (70_reset R321). -/
theorem selector_reset (a : Agent) : selector a State.reset = none := by
  have hcode : State.reset.reservedCode a = false := by cases a <;> rfl
  have hcond : State.reset.condition a = none := by cases a <;> rfl
  simp [selector, hcode, hcond]

end Sys2Proof.Machine

namespace Sys2Proof.Proofs

open Sys2Proof.Machine

/-- Settles O37: each read answers with its register, whose bits are those of `statusReg` and
`failureReg`. -/
theorem theRegistersRead : Obligations.TheRegistersRead := by
  intro s h
  refine ⟨⟨s.statusReg, takeCommand_respond_ok h rfl, ?_⟩,
    ⟨s.rdFailureReg, takeCommand_respond_ok h rfl, failureReg_fields _ _⟩,
    ⟨s.txFailureReg, takeCommand_respond_ok h rfl, failureReg_fields _ _⟩, rfl, rfl, rfl⟩
  obtain ⟨h0, h1, h2, h3, h4, h5, h6, h7⟩ := s.statusReg_flags
  exact ⟨h0, h1, h2, h3, h4, h5, h6, h7, s.statusReg_fields⟩

/-- Settles O51: the values are those `State.reset` lists, and `selector_reset` says that no step is
enabled. -/
theorem blockReset : Obligations.BlockReset := by
  unfold Obligations.BlockReset
  exact ⟨rfl, rfl, rfl, rfl, rfl, rfl, rfl, rfl, rfl, rfl, rfl, rfl, rfl, rfl, rfl, rfl, rfl, rfl,
    rfl, rfl, rfl, rfl, rfl, rfl, rfl, rfl, rfl, rfl, rfl, selector_reset⟩

end Sys2Proof.Proofs
end

section
/-! PROOFS. ENCODE and DECODE are inverse to each other but for the bits the wire does not carry
(41_codec R132, R133). Their shift and mask formulas (R130, R131) are brought to the bit table of
30_encoding R101 and R105, whose bytes `wireOfBits_toNat` and `bitsOfWire_toNat` give as numbers. -/

namespace Sys2Proof.Laws

open Sys2Proof.Machine

/-! ### Masks and shifts of a byte, as numbers -/

theorem toNat_and_0x7F (x : Byte) : (x &&& 0x7F).toNat = x.toNat % 128 :=
  Nat.and_two_pow_sub_one_eq_mod x.toNat 7

theorem toNat_and_0x07 (x : Byte) : (x &&& 0x07).toNat = x.toNat % 8 :=
  Nat.and_two_pow_sub_one_eq_mod x.toNat 3

/-- `0x80` and `0x7F` part a byte at bit 7. -/
theorem or_0x80_eq (x : Byte) : x ||| 0x80 = 0x80 + (x &&& 0x7F) := by
  revert x; decide

/-- `0xF8` and `0x07` part a byte at bit 3. -/
theorem and_0xF8_eq (x : Byte) : x &&& 0xF8 = x - (x &&& 0x07) := by
  revert x; decide

theorem toNat_or_0x80 (x : Byte) : (x ||| 0x80).toNat = 128 + x.toNat % 128 := by
  rw [or_0x80_eq, BitVec.toNat_add, toNat_and_0x7F, show (0x80 : Byte).toNat = 128 from rfl]
  omega

theorem toNat_and_0xF8 (x : Byte) : (x &&& 0xF8).toNat = x.toNat / 8 * 8 := by
  have := byte_lt x
  rw [and_0xF8_eq, BitVec.toNat_sub, toNat_and_0x07]
  omega

/-- A byte whose low three bits are 0 keeps its value under `0xF8`. -/
theorem and_0xF8_eq_self {x : Byte} (h : x &&& 0x07 = 0) : x &&& 0xF8 = x := by
  rw [and_0xF8_eq, h]
  exact BitVec.sub_zero x

theorem and_0x7F_eq_self_iff (x : Byte) : x &&& 0x7F = x ↔ x.msb = false := by
  have := byte_lt x
  rw [← BitVec.toNat_inj, toNat_and_0x7F, msb_byte, decide_eq_false_iff_not]
  omega

theorem or_0x80_eq_self_iff (x : Byte) : x ||| 0x80 = x ↔ x.msb = true := by
  have := byte_lt x
  rw [← BitVec.toNat_inj, toNat_or_0x80, msb_byte, decide_eq_true_iff]
  omega

/-- Two bytes joined as the codec joins them: the low bits of `a` moved up by `m` places, above the
bits of `b` from place `n`, when these are no more than `m` bits. -/
theorem toNat_shiftLeft_or_shiftRight (a b : Byte) {m n : Nat} (hm : m ≤ 8)
    (hb : b.toNat < 2 ^ (m + n)) :
    (a <<< m ||| b >>> n).toNat = a.toNat % 2 ^ (8 - m) * 2 ^ m + b.toNat / 2 ^ n := by
  have hlow : b.toNat / 2 ^ n < 2 ^ m :=
    Nat.div_lt_of_lt_mul (by rwa [← Nat.pow_add, Nat.add_comm])
  have hhigh : (a <<< m).toNat = (a.toNat % 2 ^ (8 - m)) <<< m := by
    rw [BitVec.toNat_shiftLeft, Nat.shiftLeft_eq, Nat.shiftLeft_eq, ← Nat.mul_mod_mul_right,
      ← Nat.pow_add, Nat.sub_add_cancel hm]
  rw [BitVec.toNat_or, hhigh, BitVec.toNat_ushiftRight, Nat.shiftRight_eq_div_pow,
    ← Nat.shiftLeft_add_eq_or_of_lt hlow, Nat.shiftLeft_eq]

/-! ### The formulas are the bit table -/

/-- Wire frames are equal when their bytes are, as numbers. -/
theorem wireFrame_ext_toNat {v w : WireFrame} (hs : v.status.toNat = w.status.toNat)
    (h1 : v.p1.toNat = w.p1.toNat) (h2 : v.p2.toNat = w.p2.toNat) (h3 : v.p3.toNat = w.p3.toNat)
    (h4 : v.p4.toNat = w.p4.toNat) (h5 : v.p5.toNat = w.p5.toNat)
    (h6 : v.p6.toNat = w.p6.toNat) : v = w := by
  cases v
  cases w
  simp_all only [BitVec.toNat_inj]

/-- The bit-7 rules bound the bytes of a wire frame (30_encoding R101). -/
theorem markersOk_iff_toNat (w : WireFrame) :
    w.markersOk = true ↔ 128 ≤ w.status.toNat ∧ w.p1.toNat < 128 ∧ w.p2.toNat < 128 ∧
      w.p3.toNat < 128 ∧ w.p4.toNat < 128 ∧ w.p5.toNat < 128 ∧ w.p6.toNat < 128 := by
  simp [WireFrame.markersOk, msb_byte, and_assoc]

/-- R130's formulas give the bits of the table of R101. -/
theorem encodeFrame_eq_wireOfBits (f : Frame) : encodeFrame f = wireOfBits f := by
  obtain ⟨hs, h1, h2, h3, h4, h5, h6⟩ := wireOfBits_toNat f
  have b0 := byte_lt f.lever0
  have b1 := byte_lt f.lever1
  have b2 := byte_lt f.lever2
  have b3 := byte_lt f.lever3
  apply wireFrame_ext_toNat <;> dsimp only [encodeFrame]
  · rw [toNat_or_0x80, hs]
  · rw [BitVec.toNat_ushiftRight, Nat.shiftRight_eq_div_pow, h1]; omega
  · rw [toNat_and_0x7F, toNat_shiftLeft_or_shiftRight _ _ (by decide) b1, h2]; omega
  · rw [toNat_and_0x7F, toNat_shiftLeft_or_shiftRight _ _ (by decide) b2, h3]; omega
  · rw [toNat_and_0x7F, toNat_shiftLeft_or_shiftRight _ _ (by decide) b3, h4]; omega
  · rw [toNat_and_0x7F, BitVec.toNat_shiftLeft, Nat.shiftLeft_eq, h5]; omega
  · rw [toNat_and_0x7F, h6]

/-- R131's formulas read the bits of the table of R105 from a frame that keeps the bit-7 rules;
the status byte keeps its marker under `STATUS_KEEP_MARKER`. -/
theorem decodeFrame_eq_bitsOfWire (keep : Bool) {w : WireFrame} (h : w.markersOk = true) :
    decodeFrame keep w =
      { bitsOfWire w with status := if keep then w.status else w.status &&& 0x7F } := by
  obtain ⟨-, h1, h2, h3, h4, h5, h6⟩ := (markersOk_iff_toNat w).mp h
  obtain ⟨-, b0, b1, b2, b3, bb⟩ := bitsOfWire_toNat w
  refine frame_ext_toNat rfl ?_ ?_ ?_ ?_ ?_ <;> dsimp only [decodeFrame]
  · rw [toNat_shiftLeft_or_shiftRight _ _ (by decide) h2, b0]; omega
  · rw [toNat_shiftLeft_or_shiftRight _ _ (by decide) h3, b1]; omega
  · rw [toNat_shiftLeft_or_shiftRight _ _ (by decide) h4, b2]; omega
  · rw [toNat_shiftLeft_or_shiftRight _ _ (by decide) h5, b3]; omega
  · rw [bb]; omega

/-! ### What the wire carries of a frame -/

/-- A storage frame without the two bits that have no place on the wire (41_codec R132). -/
def carried (f : Frame) : Frame :=
  { f with status := f.status &&& 0x7F, buttons := f.buttons &&& 0x7F }

theorem carried_encodable (f : Frame) : (carried f).encodable = true := by
  have msb (x : Byte) : (x &&& 0x7F).msb = false := by
    rw [← and_0x7F_eq_self_iff, BitVec.and_assoc, BitVec.and_self]
  simp only [Frame.encodable, carried, msb, Bool.not_false, Bool.and_self]

/-- The wire frame of a frame's bits shows what the wire carries of it. -/
theorem wireOfBits_carried (f : Frame) : wireOfBits (carried f) = wireOfBits f := by
  have data (x : Byte) : (x &&& 0x7F).extractLsb' 0 7 = x.extractLsb' 0 7 :=
    BitVec.eq_of_toNat_eq (by rw [toNat_slice, toNat_slice, toNat_and_0x7F]; omega)
  simp only [wireOfBits, carried, data]

theorem bitsOfWire_wireOfBits_eq_carried (f : Frame) : bitsOfWire (wireOfBits f) = carried f := by
  rw [← wireOfBits_carried, bitsOfWire_wireOfBits _ (carried_encodable f)]

/-- The wire carries of a decoded frame the bits it was decoded from, the marker left out. -/
theorem carried_decodeFrame (keep : Bool) {w : WireFrame} (h : w.markersOk = true) :
    carried (decodeFrame keep w) = bitsOfWire w := by
  obtain ⟨hs, -, -, -, -, hb⟩ := bitsOfWire_toNat w
  rw [decodeFrame_eq_bitsOfWire keep h]
  refine frame_ext_toNat ?_ rfl rfl rfl rfl ?_ <;> simp only [carried, toNat_and_0x7F]
  · cases keep with
    | false => rw [hs, if_neg Bool.false_ne_true, toNat_and_0x7F, Nat.mod_mod]
    | true => rw [hs, if_pos rfl]
  · rw [hb, Nat.mod_mod]

/-- Reading the bits of a wire frame and laying them out again loses `p5[2:0]` alone. -/
theorem wireOfBits_bitsOfWire {w : WireFrame} (h : w.markersOk = true) :
    wireOfBits (bitsOfWire w) = { w with p5 := w.p5 &&& 0xF8 } := by
  obtain ⟨ms, m1, m2, m3, m4, m5, m6⟩ := (markersOk_iff_toNat w).mp h
  obtain ⟨bs, b0, b1, b2, b3, bb⟩ := bitsOfWire_toNat w
  obtain ⟨ws, w1, w2, w3, w4, w5, w6⟩ := wireOfBits_toNat (bitsOfWire w)
  have hs := byte_lt w.status
  apply wireFrame_ext_toNat <;> dsimp only
  · rw [ws, bs]; clear * - ms hs; omega
  · rw [w1, b0]; clear * - m1; omega
  · rw [w2, b0, b1]; clear * - m2; omega
  · rw [w3, b1, b2]; clear * - m3; omega
  · rw [w4, b2, b3]; clear * - m4; omega
  · rw [w5, b3, toNat_and_0xF8]; clear * - m5; omega
  · rw [w6, bb]; clear * - m6; omega

/-! ### The two round trips -/

theorem encodeFrame_markersOk (f : Frame) : (encodeFrame f).markersOk = true := by
  rw [encodeFrame_eq_wireOfBits, wireOfBits_markersOk]

/-- The low three bits of an encoded frame's `p5` are 0. -/
theorem encodeFrame_p5_and_0x07 (f : Frame) : (encodeFrame f).p5 &&& 0x07 = 0 := by
  obtain ⟨-, -, -, -, -, h5, -⟩ := wireOfBits_toNat f
  apply BitVec.eq_of_toNat_eq
  rw [encodeFrame_eq_wireOfBits, toNat_and_0x07, h5]
  exact Nat.mul_mod_left _ 8

/-- DECODE after ENCODE: `status` and `buttons` lose bit 7, or `status` gains the marker. -/
theorem decodeFrame_encodeFrame (keep : Bool) (f : Frame) :
    decodeFrame keep (encodeFrame f) =
      { carried f with status := if keep then f.status ||| 0x80 else f.status &&& 0x7F } := by
  have unmark (x : Byte) : (x ||| 0x80) &&& 0x7F = x &&& 0x7F :=
    BitVec.eq_of_toNat_eq (by rw [toNat_and_0x7F, toNat_and_0x7F, toNat_or_0x80]; omega)
  rw [decodeFrame_eq_bitsOfWire keep (encodeFrame_markersOk f),
    show (encodeFrame f).status = f.status ||| 0x80 from rfl, unmark, encodeFrame_eq_wireOfBits,
    bitsOfWire_wireOfBits_eq_carried]

/-- ENCODE after DECODE: `p5[2:0]` is cleared. -/
theorem encodeFrame_decodeFrame (keep : Bool) {w : WireFrame} (h : w.markersOk = true) :
    encodeFrame (decodeFrame keep w) = { w with p5 := w.p5 &&& 0xF8 } := by
  rw [encodeFrame_eq_wireOfBits, ← wireOfBits_carried, carried_decodeFrame keep h,
    wireOfBits_bitsOfWire h]

/-- The wire frame of an encodable frame determines it. -/
theorem encodeFrame_inj_of_encodable {f g : Frame} (hf : f.encodable = true)
    (hg : g.encodable = true) (h : encodeFrame f = encodeFrame g) : f = g := by
  rw [encodeFrame_eq_wireOfBits, encodeFrame_eq_wireOfBits] at h
  rw [← bitsOfWire_wireOfBits f hf, h, bitsOfWire_wireOfBits g hg]

/-- ENCODE's image. -/
theorem exists_encodeFrame_eq_iff (w : WireFrame) :
    (∃ f, encodeFrame f = w) ↔ w.markersOk = true ∧ w.p5 &&& 0x07 = 0 := by
  constructor
  · rintro ⟨f, rfl⟩
    exact ⟨encodeFrame_markersOk f, encodeFrame_p5_and_0x07 f⟩
  · rintro ⟨hm, h5⟩
    refine ⟨decodeFrame false w, ?_⟩
    rw [encodeFrame_decodeFrame false hm, and_0xF8_eq_self h5]

end Sys2Proof.Laws

namespace Sys2Proof.Proofs

open Sys2Proof.Machine Sys2Proof.Laws

/-- Settles O7: the restored `status` and `buttons` are the frame's own exactly when a mask leaves
them unchanged. -/
theorem decodeAfterEncode : Obligations.DecodeAfterEncode := by
  intro keep f
  refine ⟨decodeFrame_encodeFrame keep f, ?_⟩
  rw [decodeFrame_encodeFrame]
  obtain ⟨status, lever0, lever1, lever2, lever3, buttons⟩ := f
  have hstatus : (if keep then status ||| 0x80 else status &&& 0x7F) = status ↔
      status.msb = keep := by
    cases keep with
    | false => exact and_0x7F_eq_self_iff status
    | true => exact or_0x80_eq_self_iff status
  simp only [carried, Frame.mk.injEq, hstatus, and_0x7F_eq_self_iff, true_and]

/-- Settles O8: the round trip, injectivity and image of ENCODE. -/
theorem encodeAfterDecode : Obligations.EncodeAfterDecode :=
  ⟨fun keep _ h => encodeFrame_decodeFrame keep h,
    fun _ _ hf hg h => encodeFrame_inj_of_encodable hf hg h, exists_encodeFrame_eq_iff⟩

end Sys2Proof.Proofs
end

section
/-! PROOFS. The Frame Synchronizer's byte steps (42_synchronizer R152 to R157), and CLOSE, which
ends both loops (44_control R247, with 42_synchronizer R169 and 43_transmitter R211). -/

namespace Sys2Proof.Machine

variable {s : State}

/-! ### The next state of each cell of the transition table (42_synchronizer R157) -/

theorem byteEffect_hi_unsync (hx : s.nextByte.msb = true) (hs : s.syncState = UNSYNC) :
    s.byteEffect = s.acceptStatus := by
  rw [State.byteEffect, if_pos hx, if_pos hs]

theorem byteEffect_hi_of_ne (hx : s.nextByte.msb = true) (hs : s.syncState ≠ UNSYNC) :
    s.byteEffect = s.discardByte := by
  rw [State.byteEffect, if_pos hx, if_neg hs]

theorem byteEffect_lo_unsync (hx : s.nextByte.msb = false) (hs : s.syncState = UNSYNC) :
    s.byteEffect = s.discardByte := by
  rw [State.byteEffect, if_neg (ne_true_of_eq_false hx), if_pos hs]

theorem byteEffect_lo_of_ne (hx : s.nextByte.msb = false) (hs : s.syncState ≠ UNSYNC)
    (hs' : s.syncState ≠ P5_READ) : s.byteEffect = s.acceptPayload := by
  rw [State.byteEffect, if_neg (ne_true_of_eq_false hx), if_neg hs, if_neg hs']

theorem byteEffect_lo_p5 (hx : s.nextByte.msb = false) (hs : s.syncState = P5_READ) :
    s.byteEffect = s.completeFrame := by
  rw [State.byteEffect, if_neg (ne_true_of_eq_false hx), if_neg (by rw [hs]; decide), if_pos hs]

/-! ### The byte steps of a Reader with a byte to process -/

theorem exec_rdByteStep_of_byteReady (h : s.byteReady) :
    exec .rdByteStep s = .next s.byteEffect := by
  obtain ⟨⟨hf, hr⟩, hmore⟩ := h
  exact takeStep_enabled hf hr ((selector_rdByteStep hr).2 hmore)

/-- The mask `0x780` of the synchronizer's decode table keeps a row's key and drops the data bits of
the word (30_encoding R107). -/
theorem rxSel_and_mask (key : BitVec 4) (data : BitVec 7) :
    (key ++ data : BitVec 11) &&& 0x780 = key ++ 0#7 := by
  have hmask : (0x780 : BitVec 11) = 0xF#4 ++ 0#7 := rfl
  have hkey : key &&& 0xF#4 = key := BitVec.and_allOnes
  rw [hmask]
  exact BitVec.and_append.trans (by rw [hkey, BitVec.and_zero])

/-- A row of the synchronizer's decode table, in the state and on the byte its key names, has its
effect, and its word matches the row's pattern (30_encoding R107, 42_synchronizer R151). -/
theorem rxRow_step {i : Instr} {key : BitVec 4} {data : BitVec 7} {body : State → State}
    {pattern : BitVec 11} (hexec : exec i s = takeByteStep (key ++ data) body s)
    (hword : encode i = .rxSel (key ++ data)) (hpattern : key ++ 0#7 = pattern) (h : s.byteReady)
    (hs : s.syncState = key.extractLsb' 1 3)
    (hx : s.nextByte = key.extractLsb' 0 1 ++ data) :
    exec i s = .next (body s) ∧ ∃ w, encode i = .rxSel w ∧ w &&& 0x780 = pattern := by
  obtain ⟨⟨hf, hr⟩, hmore⟩ := h
  refine ⟨?_, _, hword, (rxSel_and_mask key data).trans hpattern⟩
  rw [hexec]
  exact takeByteStep_enabled hf hr ((selector_rdByteStep hr).2 hmore) (rxSel_eq_iff.2 ⟨hs, hx⟩)

/-! ### Accepting a payload byte (42_synchronizer R155) -/

theorem SyncWork.byte_put (w : SyncWork) (x : Byte) {j k : Nat} (hj : j < 6) (hk : k < 6) :
    (w.put j x).byte k = if k = j then x else w.byte k := by
  interval_cases j <;> interval_cases k <;> rfl

theorem acceptPayload_syncState_toNat {n : Nat} (hs : s.syncState.toNat = n) (hn : n < 6) :
    s.acceptPayload.syncState.toNat = n + 1 := by
  have hadd : s.acceptPayload.syncState.toNat = (s.syncState.toNat + 1) % 8 := rfl
  omega

theorem acceptPayload_syncWork_byte {n : Nat} (hs : s.syncState.toNat = n) (hn : n < 6) :
    ∀ k, k < 6 →
      s.acceptPayload.syncWork.byte k = if k = n then s.nextByte else s.syncWork.byte k := by
  subst hs
  exact fun _ hk => SyncWork.byte_put _ _ hn hk

/-! ### CLOSE -/

theorem closeTransmitter_of_inUse (h : s.transmitterInUse) : s.closeTransmitter = none := by
  obtain ⟨hstopped, huse⟩ := h
  rw [State.closeTransmitter, if_neg hstopped, if_pos (by simpa using huse)]

/-- A Transmitter that is not in use is stopped already or is closed now. -/
theorem closeTransmitter_of_not_inUse (h : ¬s.transmitterInUse) :
    s.closeTransmitter = some s.transmitterClosed := by
  unfold State.closeTransmitter State.transmitterClosed
  by_cases hstopped : s.txState = TX_STOPPED
  · rw [if_pos hstopped, if_pos hstopped]
  · have huse : ¬(s.txRunning || decide (s.prState = PR_PULL_WAIT)) = true :=
      fun huse => h ⟨hstopped, by simpa using huse⟩
    rw [if_neg hstopped, if_neg huse, if_neg hstopped]
    rfl

@[simp] theorem transmitterClosed_rdState : s.transmitterClosed.rdState = s.rdState := by
  rw [State.transmitterClosed, apply_ite State.rdState, ite_self]

@[simp] theorem transmitterClosed_rdRunning : s.transmitterClosed.rdRunning = s.rdRunning := by
  simp only [State.rdRunning, transmitterClosed_rdState]

theorem closeReader_of_running (h : s.rdRunning = true) : s.closeReader = none := by
  have hstopped : s.rdState ≠ RD_STOPPED := by
    intro hs
    rw [State.rdRunning, hs] at h
    exact absurd h (by decide)
  rw [State.closeReader, if_neg hstopped, if_pos h]

/-- A Reader that is not running is stopped already or is closed now. -/
theorem closeReader_of_not_running (h : s.rdRunning = false) : s.closeReader = some s.rdClose := by
  unfold State.closeReader
  by_cases hstopped : s.rdState = RD_STOPPED
  · rw [if_pos hstopped, State.rdClose, ← hstopped]
  · rw [if_neg hstopped, h, if_neg Bool.false_ne_true]

/-- What CLOSE does outside an OPEN: the Transmitter's part, then the Reader's. -/
theorem exec_closeSession_zero (h : s.commandReady) :
    exec (.closeSession 0) s =
      .next (if s.ssState = SS_CLOSED then s.answerMisuse
        else s.closeTransmitter.elim s.answerMisuse fun t =>
          t.closeReader.elim t.answerMisuse fun u => (u.gotoSs SS_CLOSED).respond RESP_OK 0) := by
  obtain ⟨⟨hf, hr⟩, hb⟩ := h
  rw [exec, execCloseSession, takeCommand_legal hf hr hb (decide_eq_true rfl)]
  cases s.closeTransmitter with
  | none => rfl
  | some t => cases htr : t.closeReader <;> simp only [htr, Option.elim]

end Sys2Proof.Machine

namespace Sys2Proof.Proofs

open Sys2Proof.Machine

/-- Settles O15: each cell's next state is the one `byteEffect` gives there. -/
theorem aByteStepFollowsTheTransitionTable : Obligations.AByteStepFollowsTheTransitionTable := by
  intro s h
  rw [exec_rdByteStep_of_byteReady h]
  exact ⟨fun hx hs => congrArg _ (byteEffect_hi_unsync hx hs),
    fun hx hs => congrArg _ (byteEffect_hi_of_ne hx hs),
    fun hx hs => congrArg _ (byteEffect_lo_unsync hx hs),
    fun hx hs hs' => congrArg _ (byteEffect_lo_of_ne hx hs hs'),
    fun hx hs => congrArg _ (byteEffect_lo_p5 hx hs)⟩

/-- Settles O10: key `0x1` is `UNSYNC` with a byte of class 1. -/
theorem aStatusByteIsAccepted : Obligations.AStatusByteIsAccepted :=
  fun _ _ h hs hx => rxRow_step (body := State.acceptStatus) rfl rfl rfl h hs hx

/-- Settles O11: all seven rows have the one effect, `discardByte`. -/
theorem aViolatingByteIsDiscarded : Obligations.AViolatingByteIsDiscarded := by
  intro s data h
  refine ⟨fun row hrow => ?_, fun hs hx =>
    rxRow_step (body := State.discardByte) rfl rfl rfl h hs hx⟩
  simp only [List.mem_cons, List.not_mem_nil, or_false] at hrow
  obtain rfl | rfl | rfl | rfl | rfl | rfl := hrow <;>
    exact fun hs hx => rxRow_step (body := State.discardByte) rfl rfl rfl h hs hx

/-- Settles O12: the row of state `k` stores the byte in working byte `k`. -/
theorem aPayloadByteIsAccepted : Obligations.APayloadByteIsAccepted := by
  intro s data h hx row hrow hs
  simp only [List.mem_cons, List.not_mem_nil, or_false] at hrow
  have hn : row.2.1 < 6 := by obtain rfl | rfl | rfl | rfl | rfl := hrow <;> decide
  have hstep : exec (row.1 data) s = .next s.acceptPayload ∧
      ∃ w, encode (row.1 data) = .rxSel w ∧ w &&& 0x780 = row.2.2 := by
    obtain rfl | rfl | rfl | rfl | rfl := hrow <;>
      exact rxRow_step rfl rfl rfl h (BitVec.eq_of_toNat_eq hs) hx
  obtain ⟨hexec, hword⟩ := hstep
  exact ⟨_, hexec, acceptPayload_syncState_toNat hs hn, acceptPayload_syncWork_byte hs hn, rfl,
    hword⟩

/-- Settles O13: key `0xC` is `P5_READ` with a byte of class 0. -/
theorem theLastPayloadByteCompletesTheFrame : Obligations.TheLastPayloadByteCompletesTheFrame :=
  fun _ _ h hs hx => rxRow_step (body := State.completeFrame) rfl rfl rfl h hs hx

/-- Settles O34: the Transmitter's part of CLOSE comes first, so a misuse at the Reader leaves it
closed. -/
theorem closeClosesTheTransmitterThenTheReader :
    Obligations.CloseClosesTheTransmitterThenTheReader := by
  intro s h
  rw [exec_closeSession_zero h]
  refine ⟨fun hss => ?_, fun hss htx => ?_, fun hss htx hrd => ?_, fun hss htx hrd => ?_, rfl⟩
  · rw [if_pos hss]; rfl
  · rw [if_neg hss, closeTransmitter_of_inUse htx]; rfl
  · rw [if_neg hss, closeTransmitter_of_not_inUse htx, Option.elim_some,
      closeReader_of_running (transmitterClosed_rdRunning.trans hrd)]
    rfl
  · rw [if_neg hss, closeTransmitter_of_not_inUse htx, Option.elim_some,
      closeReader_of_not_running (transmitterClosed_rdRunning.trans hrd)]
    rfl

end Sys2Proof.Proofs
end

section
/-! PROOFS. The Transmitter's main loop at `TX_NEXT` and its feedback listener (43_transmitter R198,
R199, R201, R210), and the mark below which every write is issued (R214). -/

namespace Sys2Proof.Machine

variable {s t : State}

/-! ### What a move adds to the trace -/

/-- From `s` to `t` at most one event is emitted, and a `TxWrite` only as the step out of
`TX_THROTTLE` with `fill` at or below the mark emits it (43_transmitter R202). -/
def EmitsWriteAtMark (s t : State) : Prop :=
  t.trace = s.trace ∨
    ∃ e, t.trace = s.trace ++ [e] ∧
      ∀ w, e = .txWrite w →
        s.fill ≤ s.params.hwm ∧ s.txState = TX_THROTTLE ∧ t.txState = TX_WRITE_WAIT

theorem EmitsWriteAtMark.of_event {e : Event} (htr : t.trace = s.trace ++ [e])
    (he : ∀ w, e ≠ .txWrite w) : EmitsWriteAtMark s t :=
  .inr ⟨e, htr, fun w hw => absurd hw (he w)⟩

theorem EmitsWriteAtMark.of_txWrite {w : WireFrame} (h : EmitsWriteAtMark s t)
    (htr : t.trace = s.trace ++ [.txWrite w]) :
    s.fill ≤ s.params.hwm ∧ s.txState = TX_THROTTLE ∧ t.txState = TX_WRITE_WAIT := by
  obtain hsame | ⟨e, hone, hmark⟩ := h
  · rw [hsame] at htr
    exact absurd htr.symm (by simp)
  · have hlast : [e] = [.txWrite w] := List.append_cancel_left (hone.symm.trans htr)
    exact hmark w (List.singleton_inj.1 hlast)

@[simp] theorem byteEffect_trace (s : State) : s.byteEffect.trace = s.trace := by
  obtain ⟨-, -, h⟩ | ⟨-, -, h⟩ | ⟨-, -, h⟩ | ⟨-, -, -, h⟩ | ⟨-, -, h⟩ := byteEffect_cases s <;>
    rw [h] <;> rfl

/-- Only `TX.THROTTLE_PASS` emits a `TxWrite`. -/
theorem Effect.emitsWriteAtMark {i : Instr} (h : Effect i s t) : EmitsWriteAtMark s t := by
  cases h
  case throttlePass at_ mark _ => exact .inr ⟨_, rfl, fun _ _ => ⟨mark, at_, rfl⟩⟩
  case byteStep => exact .inl (byteEffect_trace s)
  case swapUnderrun =>
    obtain ⟨-, -, h⟩ | ⟨-, h⟩ := s.underrunNotify_cases <;> rw [h]
    · exact .of_event rfl nofun
    · exact .inl rfl
  case underrunRetry => refine .inl ?_; split <;> rfl
  case drainEnd => exact .inl (by simp)
  case pullDone => exact .inl (by simp)
  case closeBoth tx _ rd =>
    obtain ⟨-, rfl⟩ | ⟨-, -, -, rfl⟩ := tx <;> obtain ⟨-, rfl⟩ | ⟨-, rfl⟩ := rd <;>
      exact .of_event rfl nofun
  case dispatchExt | pullIssue | deviceOpenFail | startTx | misuse | illegal | answered | closePart
    | attachRec | attachRecFull | detachRec | attachPlayer | detachPlayer =>
    exact .of_event rfl nofun
  all_goals exact .inl rfl

/-- An answer put on offer, or a clock, emits nothing; a command with a reserved opcode emits its
response. -/
theorem step_emitsWriteAtMark (h : step s = .next t) : EmitsWriteAtMark s t := by
  obtain ⟨-, rfl | rfl | rfl | ⟨i, hi⟩ | hc | ⟨r, rfl⟩ | ⟨r, rfl⟩ | ⟨fs, rfl⟩ | ⟨id, rfl⟩ |
    ⟨r, rfl⟩ | ⟨now, rfl⟩⟩ := step_cases h
  · exact .inl rfl
  · exact .inl rfl
  · exact .inl rfl
  · obtain rfl | heff := exec_cases hi
    · exact .inl rfl
    · exact heff.emitsWriteAtMark
  · obtain rfl | rfl | rfl := reservedCommand_cases hc
    · exact .inl rfl
    · exact .of_event rfl nofun
    · exact .of_event rfl nofun
  · obtain ⟨-, -, h⟩ | h := offerRead_cases s.popTurn r <;> exact .inl (by rw [h]; rfl)
  · obtain ⟨-, -, h⟩ | h := offerWrite_cases s.popTurn r <;> exact .inl (by rw [h]; rfl)
  · obtain ⟨-, -, h⟩ | h := offerPull_cases s.popTurn fs <;> exact .inl (by rw [h]; rfl)
  · obtain ⟨-, -, -, -, h⟩ | h := offerAck_cases s.popTurn id <;> exact .inl (by rw [h]; rfl)
  · obtain ⟨-, -, h⟩ | h := offerDevice_cases s.popTurn r <;> exact .inl (by rw [h]; rfl)
  · exact .inl rfl

/-! ### The feedback listener and the steps of `TX_NEXT` -/

/-- Both counts after `cnt[b] <- n`. -/
theorem State.setCnt_eq (s : State) (b : Bool) (n : Nat) :
    s.setCnt b n =
      { s with cnt0 := if b then s.cnt0 else n, cnt1 := if b then n else s.cnt1 } := by
  cases b <;> rfl

/-- The low six bits of a byte, by the mask that 43_transmitter R210 writes. -/
theorem toNat_low6_eq_and (x : Byte) : (x.extractLsb' 0 6).toNat = x.toNat &&& 0x3F := by
  rw [Laws.toNat_slice, Nat.pow_zero, Nat.div_one]
  exact (Nat.and_two_pow_sub_one_eq_mod x.toNat 6).symm

theorem exec_rdFeedback_of_listener (h : s.ready .rd) (hs : s.rdState = RD_DISPATCH)
    (hentry : s.dispList[s.dispIdx]? = some LISTENER) :
    exec .rdFeedback s =
      .next { s with fill := s.dispFrame.status.extractLsb' 0 6, dispIdx := s.dispIdx + 1 } := by
  rw [exec, execRdFeedback, takeStep_enabled h.1 h.2 ((selector_rdFeedback h.2).2 ⟨hs, hentry⟩)]

theorem exec_txDrainEnd_of_drained (h : s.ready .tx) (hs : s.txState = TX_NEXT)
    (hdrained : s.widx = s.cnt s.wsel) :
    exec .txDrainEnd s = .next { s.setCnt s.wsel 0 with widx := 0, txState := TX_SWAP } := by
  rw [exec, execTxDrainEnd, takeStep_enabled h.1 h.2 ((selector_txDrainEnd h.2).2 ⟨hs, hdrained⟩)]

theorem exec_txHalfPoint_of_half (h : s.ready .tx) (hs : s.txState = TX_NEXT)
    (hmore : s.widx < s.cnt s.wsel) (hhalf : s.widx = s.cnt s.wsel / 2) :
    exec .txHalfPoint s = .next (s.gotoTx TX_HALF_NEED) := by
  rw [exec, execTxHalfPoint,
    takeStep_enabled h.1 h.2 ((selector_txHalfPoint h.2).2 ⟨hs, hmore, hhalf⟩)]

theorem exec_txNextFrame_of_ne_half (h : s.ready .tx) (hs : s.txState = TX_NEXT)
    (hmore : s.widx < s.cnt s.wsel) (hhalf : s.widx ≠ s.cnt s.wsel / 2) :
    exec .txNextFrame s = .next (s.gotoTx TX_THROTTLE) := by
  rw [exec, execTxNextFrame,
    takeStep_enabled h.1 h.2 ((selector_txNextFrame h.2).2 ⟨hs, hmore, hhalf⟩)]

end Sys2Proof.Machine

namespace Sys2Proof.Proofs

open Sys2Proof.Machine

/-- Settles O47: the one effect that emits a `TxWrite` is that of `TX.THROTTLE_PASS`. -/
theorem everyWriteIsIssuedAtOrBelowTheMark : Obligations.EveryWriteIsIssuedAtOrBelowTheMark := by
  intro s t w h htr
  obtain ⟨hmark, hstate⟩ := (step_emitsWriteAtMark h).of_txWrite htr
  exact ⟨BitVec.le_def.1 hmark, hstate⟩

/-- Settles O21: the listener takes the slice `status[5:0]`, which is the mask's value. -/
theorem theFeedbackStepSetsFill : Obligations.TheFeedbackStepSetsFill :=
  fun _ h hs hentry =>
    ⟨_, exec_rdFeedback_of_listener h hs hentry, toNat_low6_eq_and _, rfl, rfl⟩

/-- Settles O26: each clause's condition is the one that enables its step. -/
theorem theMainLoopDecidesTheNextMove : Obligations.TheMainLoopDecidesTheNextMove := by
  intro s h hs
  refine ⟨fun hdrained => ?_, exec_txHalfPoint_of_half h hs, exec_txNextFrame_of_ne_half h hs,
    rfl, rfl, rfl⟩
  rw [exec_txDrainEnd_of_drained h hs hdrained, State.setCnt_eq]

end Sys2Proof.Proofs
end

section
/-! PROOFS. The commands of the control port that attach and detach (44_control R248 to R251), and
the commands answered ILLEGAL or, during an OPEN, MISUSE (R256, R258). -/

namespace Sys2Proof.Machine

variable {s : State}

/-! ### The guards of a command -/

theorem takeCommand_of_legal {legal : Bool} {body : State → State} (h : s.commandReady)
    (hl : legal = true) : takeCommand legal body s = .next (body s) := by
  obtain ⟨⟨hf, hr⟩, hb⟩ := h
  exact takeCommand_legal hf hr hb hl

theorem takeCommand_of_illegal {legal : Bool} {body : State → State} (h : s.commandReady)
    (hl : legal = false) : takeCommand legal body s = .next (s.after (.resp 0x02 0)) := by
  obtain ⟨⟨hf, hr⟩, hb⟩ := h
  exact takeCommand_illegal hf hr hb hl

/-- The operand check of each command (44_control R256), of which OPEN has none. -/
def legalOperand : Instr → Bool
  | .closeSession operand | .readStatus operand | .readRdFailure operand
  | .readTxFailure operand => decide (operand = 0)
  | .attachRec id | .detachRec id | .attachPlayer id | .detachPlayer id => hostId id
  | _ => true

/-- Every instruction whose word is a host command is taken under the guards of 44_control R240,
with its own operand check. -/
theorem exec_eq_takeCommand {i : Instr} (hc : ∃ w, encode i = .ctlCmd w) (s : State) :
    ∃ body, exec i s = takeCommand (legalOperand i) body s := by
  obtain ⟨w, hw⟩ := hc
  cases i
  case openSession | closeSession | attachRec | detachRec | attachPlayer | detachPlayer | readStatus
    | readRdFailure | readTxFailure =>
    simp only [exec, execOpenSession, execCloseSession, execAttachRec, execDetachRec,
      execAttachPlayer, execDetachPlayer, execReadStatus, execReadRdFailure, execReadTxFailure]
    exact ⟨_, rfl⟩
  all_goals cases hw

theorem exec_command_of_busy {i : Instr} (hc : ∃ w, encode i = .ctlCmd w) (h : s.ready .cu)
    (hb : s.cuBusy = true) : exec i s = .next s.answerMisuse := by
  obtain ⟨body, hexec⟩ := exec_eq_takeCommand hc s
  rw [hexec, takeCommand_busy h.1 h.2 hb]

theorem exec_command_of_illegal {i : Instr} (hc : ∃ w, encode i = .ctlCmd w) (h : s.commandReady)
    (hl : legalOperand i = false) : exec i s = .next (s.after (.resp 0x02 0)) := by
  obtain ⟨body, hexec⟩ := exec_eq_takeCommand hc s
  rw [hexec, takeCommand_of_illegal h hl]

/-! ### Reserved opcodes -/

theorem tableFind_eq_none {n : Nat} {α : Type} {k : BitVec n} {table : List (BitVec n × α)}
    (h : ∀ row ∈ table, row.1 ≠ k) : tableFind k table = none := by
  induction table with
  | nil => rfl
  | cons row rest ih =>
    obtain ⟨hrow, hrest⟩ := List.forall_mem_cons.1 h
    rw [tableFind, if_neg hrow, ih hrest]

/-- The opcode map lists opcodes 1..9 only (30_encoding R109). -/
theorem opcodeTable_range : ∀ row ∈ opcodeTable, row.1 ≠ 0 ∧ row.1 < 0x0A := by decide

theorem decode_ctlCmd_of_reserved {opcode : Byte} (operand : Byte)
    (h : opcode = 0 ∨ 0x0A ≤ opcode) :
    decode (.ctlCmd (opcode ++ operand)) = .rejected (.reservedOpcode opcode) := by
  have hunlisted : tableFind opcode opcodeTable = none := by
    refine tableFind_eq_none fun row hrow heq => ?_
    obtain ⟨hne, hlt⟩ := opcodeTable_range row hrow
    obtain hzero | hge := h
    · exact hne (heq.trans hzero)
    · exact BitVec.not_lt.2 hge (heq ▸ hlt)
  have hkey : @BitVec.extractLsb' 16 8 8 (opcode ++ operand) = opcode :=
    Laws.slice_concat_hi opcode operand
  simp only [decode, hkey, hunlisted]

theorem State.popTurn_of_turns {turn : Turn} {rest : List Turn} (h : s.turns = turn :: rest) :
    s.popTurn = { s with turns := rest } := by
  rw [State.popTurn, h, List.tail_cons]

/-- A move with a reserved opcode is used up and handed to the control unit. -/
theorem step_of_reservedOpcode {opcode operand : Byte} {rest : List Turn} (hf : s.faulted = false)
    (hop : opcode = 0 ∨ 0x0A ≤ opcode)
    (ht : s.turns = .word (.ctlCmd (opcode ++ operand)) :: rest) :
    step s = reservedCommand { s with turns := rest } := by
  rw [← State.popTurn_of_turns ht]
  simp only [step, hf, ht, runCode, decode_ctlCmd_of_reserved operand hop, undecoded,
    Bool.false_eq_true, if_false]

/-! ### The effect of each attach and detach command with an id the host may name -/

theorem hostId_of_ne_zero {id : Byte} (h : id ≠ 0) : hostId id = true := decide_eq_true h

theorem exec_attachRec_of_hostId {id : Byte} (h : s.commandReady) (hid : id ≠ 0) :
    exec (.attachRec id) s =
      .next (if id ∈ s.recReg then s.respond RESP_OK 0
        else if s.externals = s.params.maxRecorders then s.respond RESP_FULL 0
        else { s with recReg := s.recReg ++ [id] }.respond RESP_OK 0) := by
  rw [exec, execAttachRec, takeCommand_of_legal h (hostId_of_ne_zero hid)]

theorem exec_detachRec_of_hostId {id : Byte} (h : s.commandReady) (hid : id ≠ 0) :
    exec (.detachRec id) s =
      .next ({ s with recReg := s.recReg.filter (· ≠ id) }.respond RESP_OK 0) := by
  rw [exec, execDetachRec, takeCommand_of_legal h (hostId_of_ne_zero hid)]

theorem exec_attachPlayer_of_hostId {id : Byte} (h : s.commandReady) (hid : id ≠ 0) :
    exec (.attachPlayer id) s =
      .next (if s.player ≠ 0 then s.answerMisuse else { s with player := id }.respond RESP_OK 0) := by
  rw [exec, execAttachPlayer, takeCommand_of_legal h (hostId_of_ne_zero hid)]

theorem exec_detachPlayer_of_hostId {id : Byte} (h : s.commandReady) (hid : id ≠ 0) :
    exec (.detachPlayer id) s =
      .next ((if s.player = id then { s with player := 0 } else s).respond RESP_OK 0) := by
  rw [exec, execDetachPlayer, takeCommand_of_legal h (hostId_of_ne_zero hid)]

/-! ### OPEN is never answered ILLEGAL -/

/-- An OPEN taken is answered MISUSE, or not at all yet (44_control R242). -/
theorem exec_openSession_trace (dev : Byte) (h : s.commandReady) :
    ∃ t, exec (.openSession dev) s = .next t ∧
      (t.trace = s.trace ++ [.resp RESP_MISUSE 0] ∨ t.trace = s.trace) := by
  rw [exec, execOpenSession, takeCommand_of_legal h rfl]
  refine ⟨_, rfl, ?_⟩
  split
  · exact .inl (State.answerMisuse_trace s)
  · exact .inr rfl

end Sys2Proof.Machine

namespace Sys2Proof.Proofs

open Sys2Proof.Machine

/-- Settles O35: ids 1..255 take the branches of R248 and R249, and id 0 is no legal operand. -/
theorem recordersAreAttachedAndDetached : Obligations.RecordersAreAttachedAndDetached := by
  intro s id h
  refine ⟨fun hid hin => ?_, fun hid hout hfull => ?_, fun hid hout hroom => ?_,
    exec_detachRec_of_hostId h, fun hid => ?_, rfl, rfl⟩
  · rw [exec_attachRec_of_hostId h hid, if_pos hin]; rfl
  · have hfull : s.externals = s.params.maxRecorders := hfull
    rw [exec_attachRec_of_hostId h hid, if_neg hout, if_pos hfull]; rfl
  · have hroom : s.externals ≠ s.params.maxRecorders := hroom
    rw [exec_attachRec_of_hostId h hid, if_neg hout, if_neg hroom]; rfl
  · subst hid
    exact ⟨exec_command_of_illegal ⟨_, rfl⟩ h rfl, exec_command_of_illegal ⟨_, rfl⟩ h rfl⟩

/-- Settles O36: the second attach is a misuse whatever its id, and a detach of another id has the
answer as its only effect. -/
theorem onePlayerIsAttached : Obligations.OnePlayerIsAttached := by
  intro s id h hid
  rw [exec_attachPlayer_of_hostId h hid, exec_detachPlayer_of_hostId h hid]
  refine ⟨fun hnone => ?_, fun hone => ?_, fun hsame => ?_, fun hother => ?_, rfl, rfl⟩
  · rw [if_neg (not_not_intro hnone)]; rfl
  · rw [if_pos hone]; rfl
  · rw [if_pos hsame]; rfl
  · rw [if_neg hother]; rfl

/-- Settles O38: each operand listed fails its command's own check, a reserved opcode is a command
with no legal operand, and an OPEN's trace does not end in an ILLEGAL. -/
theorem illegalCommandsChangeNothing : Obligations.IllegalCommandsChangeNothing := by
  intro s h
  refine ⟨fun operand hop i hi => ?_, fun i hi => ?_, fun opcode operand rest hop ht => ?_,
    fun dev heq => ?_⟩
  · simp only [List.mem_cons, List.not_mem_nil, or_false] at hi
    obtain rfl | rfl | rfl | rfl := hi <;>
      exact exec_command_of_illegal ⟨_, rfl⟩ h (decide_eq_false hop)
  · simp only [List.mem_cons, List.not_mem_nil, or_false] at hi
    obtain rfl | rfl | rfl | rfl := hi <;> exact exec_command_of_illegal ⟨_, rfl⟩ h rfl
  · rw [step_of_reservedOpcode h.1.1 hop ht]
    exact takeCommand_of_illegal (s := { s with turns := rest }) h rfl
  · obtain ⟨t, hopen, htrace⟩ := exec_openSession_trace dev h
    obtain rfl : t = s.after (.resp 0x02 0) := Host.Outcome.next.inj (hopen.symm.trans heq)
    obtain hmisuse | hsilent := htrace
    · exact absurd (List.append_cancel_left hmisuse) (by decide)
    · exact absurd (List.append_right_eq_self.1 hsilent) (List.cons_ne_nil _ _)

/-- Settles O39: the check of `cu_busy` comes before every other of a command, and a reserved opcode
is a command as well. -/
theorem commandsDuringAnOpenAreMisuse : Obligations.CommandsDuringAnOpenAreMisuse := by
  intro s h hb
  refine ⟨fun operand i hi => ?_, fun opcode operand rest hop ht => ?_⟩
  · have hcommand : ∃ w, encode i = .ctlCmd w := by
      simp only [List.mem_cons, List.not_mem_nil, or_false] at hi
      obtain rfl | rfl | rfl | rfl | rfl | rfl | rfl | rfl | rfl := hi <;> exact ⟨_, rfl⟩
    exact exec_command_of_busy hcommand h hb
  · rw [step_of_reservedOpcode h.1 hop ht]
    exact takeCommand_busy (s := { s with turns := rest }) h.1 h.2 hb

end Sys2Proof.Proofs
end

section
/-! PROOFS. The decoder and the encoder are inverse to each other (30_encoding R101 to R112), and
the codec's formulas are its bit tables (41_codec R130, R131). -/

namespace Sys2Proof.Laws

open Sys2Proof.Machine

/-! ### Decoding an encoding -/

/-- The round trips of the single instructions, put together. -/
theorem roundTrip (i : Instr) : RoundTrip.Statement i := by
  cases i with
  | codecEncode f => exact RoundTrip.codecEncode f
  | codecDecode w => exact RoundTrip.codecDecode w
  | rxUnsyncHi data => exact RoundTrip.rxUnsyncHi data
  | rxUnsyncLo data => exact RoundTrip.rxUnsyncLo data
  | rxStatusReadHi data => exact RoundTrip.rxStatusReadHi data
  | rxStatusReadLo data => exact RoundTrip.rxStatusReadLo data
  | rxP1ReadHi data => exact RoundTrip.rxP1ReadHi data
  | rxP1ReadLo data => exact RoundTrip.rxP1ReadLo data
  | rxP2ReadHi data => exact RoundTrip.rxP2ReadHi data
  | rxP2ReadLo data => exact RoundTrip.rxP2ReadLo data
  | rxP3ReadHi data => exact RoundTrip.rxP3ReadHi data
  | rxP3ReadLo data => exact RoundTrip.rxP3ReadLo data
  | rxP4ReadHi data => exact RoundTrip.rxP4ReadHi data
  | rxP4ReadLo data => exact RoundTrip.rxP4ReadLo data
  | rxP5ReadHi data => exact RoundTrip.rxP5ReadHi data
  | rxP5ReadLo data => exact RoundTrip.rxP5ReadLo data
  | openSession operand => exact RoundTrip.openSession operand
  | closeSession operand => exact RoundTrip.closeSession operand
  | attachRec operand => exact RoundTrip.attachRec operand
  | detachRec operand => exact RoundTrip.detachRec operand
  | attachPlayer operand => exact RoundTrip.attachPlayer operand
  | detachPlayer operand => exact RoundTrip.detachPlayer operand
  | readStatus operand => exact RoundTrip.readStatus operand
  | readRdFailure operand => exact RoundTrip.readRdFailure operand
  | readTxFailure operand => exact RoundTrip.readTxFailure operand
  | _ => exact fun _ => rfl

/-! ### Encoding a decoding -/

/-- What a table finds is one of its rows. -/
theorem mem_of_tableFind_eq_some {n : Nat} {α : Type} {k : BitVec n} {table : List (BitVec n × α)}
    {row : α} (h : tableFind k table = some row) : (k, row) ∈ table := by
  induction table with
  | nil => cases h
  | cons entry rest ih =>
    obtain ⟨key, r⟩ := entry
    rw [tableFind] at h
    split at h
    · rename_i hkey
      cases h
      exact hkey ▸ List.mem_cons_self
    · exact List.mem_cons_of_mem _ (ih h)

/-- Every row of the synchronizer's table is found by the word it encodes to (30_encoding R107). -/
theorem rxTable_encode : ∀ entry ∈ rxTable, ∀ data : BitVec 7,
    encode (entry.2 data) = .rxSel (entry.1 ++ data) ∧ wellFormed (entry.2 data) = true := by
  simp only [rxTable, List.forall_mem_cons, List.not_mem_nil, false_implies, implies_true, and_true]
  exact ⟨fun _ => ⟨rfl, rfl⟩, fun _ => ⟨rfl, rfl⟩, fun _ => ⟨rfl, rfl⟩, fun _ => ⟨rfl, rfl⟩,
    fun _ => ⟨rfl, rfl⟩, fun _ => ⟨rfl, rfl⟩, fun _ => ⟨rfl, rfl⟩, fun _ => ⟨rfl, rfl⟩,
    fun _ => ⟨rfl, rfl⟩, fun _ => ⟨rfl, rfl⟩, fun _ => ⟨rfl, rfl⟩, fun _ => ⟨rfl, rfl⟩,
    fun _ => ⟨rfl, rfl⟩, fun _ => ⟨rfl, rfl⟩⟩

/-- Every row of the opcode map is found by the word it encodes to (30_encoding R109). -/
theorem opcodeTable_encode : ∀ entry ∈ opcodeTable, ∀ operand : Byte,
    encode (entry.2 operand) = .ctlCmd (entry.1 ++ operand) ∧
      wellFormed (entry.2 operand) = true := by
  simp only [opcodeTable, List.forall_mem_cons, List.not_mem_nil, false_implies, implies_true,
    and_true]
  exact ⟨fun _ => ⟨rfl, rfl⟩, fun _ => ⟨rfl, rfl⟩, fun _ => ⟨rfl, rfl⟩, fun _ => ⟨rfl, rfl⟩,
    fun _ => ⟨rfl, rfl⟩, fun _ => ⟨rfl, rfl⟩, fun _ => ⟨rfl, rfl⟩, fun _ => ⟨rfl, rfl⟩,
    fun _ => ⟨rfl, rfl⟩⟩

/-- Every row of the step table is found by the word it encodes to (30_encoding R112). -/
theorem stepTable_encode :
    ∀ entry ∈ stepTable, encode entry.2 = .stepSel entry.1 ∧ wellFormed entry.2 = true := by
  decide

/-- A word is its upper and its lower field. -/
theorem concat_slices {n m k : Nat} (hk : k = n + m) (w : BitVec k) :
    (w.extractLsb' m n ++ w.extractLsb' 0 m).toNat = w.toNat := by
  have hlt : w.toNat / 2 ^ m < 2 ^ n :=
    Nat.div_lt_of_lt_mul (by rw [← Nat.pow_add, Nat.add_comm, ← hk]; exact w.isLt)
  rw [toNat_concat, toNat_slice, toNat_slice, Nat.pow_zero, Nat.div_one, Nat.mod_eq_of_lt hlt,
    Nat.mul_comm, Nat.div_add_mod]

theorem rxSel_concat_slices (w : BitVec 11) : w.extractLsb' 7 4 ++ w.extractLsb' 0 7 = w :=
  BitVec.eq_of_toNat_eq (concat_slices (n := 4) (m := 7) rfl w)

theorem ctlCmd_concat_slices (w : BitVec 16) : w.extractLsb' 8 8 ++ w.extractLsb' 0 8 = w :=
  BitVec.eq_of_toNat_eq (concat_slices (n := 8) (m := 8) rfl w)

/-- The two bits a storage frame read from the wire has no place for are 0. -/
theorem bitsOfWire_encodable (w : WireFrame) : (bitsOfWire w).encodable = true := by
  obtain ⟨hs, -, -, -, -, hb⟩ := bitsOfWire_toNat w
  simp only [Frame.encodable, msb_byte, Bool.and_eq_true, Bool.not_eq_true',
    decide_eq_false_iff_not]
  omega

/-- A byte whose slice `[2:0]` is 0 keeps its value under `0xF8`. -/
theorem and_0xF8_eq_self_of_slice {x : Byte} (h : x.extractLsb' 0 3 = 0#3) : x &&& 0xF8 = x := by
  refine and_0xF8_eq_self (BitVec.eq_of_toNat_eq ?_)
  rw [toNat_and_0x07, show x.toNat % 8 = (x.extractLsb' 0 3).toNat by rw [toNat_slice]; simp, h]
  rfl

/-- A wire frame that ENCODE gives is laid out again from its own bits. -/
theorem wireOfBits_bitsOfWire_of_p5 {w : WireFrame} (hm : w.markersOk = true)
    (h5 : w.p5.extractLsb' 0 3 = 0#3) : wireOfBits (bitsOfWire w) = w := by
  rw [wireOfBits_bitsOfWire hm, and_0xF8_eq_self_of_slice h5]

theorem encode_of_decode_wireOut {w : WireFrame} {i : Instr} (h : decode (.wireOut w) = .instr i) :
    encode i = .wireOut w ∧ wellFormed i = true := by
  rw [decode] at h
  split at h
  · cases h
  · rename_i hm
    have hm : w.markersOk = true := by simpa using hm
    split at h
    · cases h
    · rename_i h5
      cases h
      exact ⟨congrArg Code.wireOut (wireOfBits_bitsOfWire_of_p5 hm (not_not.1 h5)),
        bitsOfWire_encodable w⟩

theorem encode_of_decode_wireIn {w : WireFrame} {i : Instr} (h : decode (.wireIn w) = .instr i) :
    encode i = .wireIn w ∧ wellFormed i = true := by
  rw [decode] at h
  split at h
  · rename_i hm
    cases h
    exact ⟨rfl, hm⟩
  · cases h

theorem encode_of_decode_rxSel {w : BitVec 11} {i : Instr} (h : decode (.rxSel w) = .instr i) :
    encode i = .rxSel w ∧ wellFormed i = true := by
  rw [decode] at h
  split at h
  · rename_i row hrow
    cases h
    obtain ⟨he, hw⟩ := rxTable_encode _ (mem_of_tableFind_eq_some hrow) (w.extractLsb' 0 7)
    exact ⟨he.trans (congrArg Code.rxSel (rxSel_concat_slices w)), hw⟩
  · cases h

theorem encode_of_decode_ctlCmd {w : BitVec 16} {i : Instr} (h : decode (.ctlCmd w) = .instr i) :
    encode i = .ctlCmd w ∧ wellFormed i = true := by
  rw [decode] at h
  split at h
  · rename_i row hrow
    cases h
    obtain ⟨he, hw⟩ := opcodeTable_encode _ (mem_of_tableFind_eq_some hrow) (w.extractLsb' 0 8)
    exact ⟨he.trans (congrArg Code.ctlCmd (ctlCmd_concat_slices w)), hw⟩
  · cases h

theorem encode_of_decode_stepSel {w : BitVec 8} {i : Instr} (h : decode (.stepSel w) = .instr i) :
    encode i = .stepSel w ∧ wellFormed i = true := by
  rw [decode] at h
  split at h
  · rename_i row hrow
    cases h
    exact stepTable_encode _ (mem_of_tableFind_eq_some hrow)
  · cases h

/-! ### The codec's formulas on unbounded numbers (00_scope R9) -/

/-- The two bytes of a shifted pair, truncated to 8 bits, as 41_codec R131 writes it. -/
theorem toNat_shiftLeft_or_shiftRight_trunc (a b : Byte) (m n : Nat) :
    (a <<< m ||| b >>> n).toNat = (a.toNat <<< m ||| b.toNat >>> n) % 256 := by
  rw [BitVec.toNat_or, BitVec.toNat_shiftLeft, BitVec.toNat_ushiftRight,
    show (256 : Nat) = 2 ^ 8 from rfl, Nat.or_mod_two_pow,
    Nat.mod_eq_of_lt (Nat.lt_of_le_of_lt (Nat.shiftRight_le b.toNat n) b.isLt)]

/-- Bits from place 8 on are masked away by `0x7F`. -/
theorem mod_256_and_0x7F (n : Nat) : n % 256 &&& 0x7F = n &&& 0x7F := by
  rw [show (0x7F : Nat) = 2 ^ 7 - 1 from rfl, Nat.and_two_pow_sub_one_eq_mod,
    Nat.and_two_pow_sub_one_eq_mod]
  omega

/-- The two bytes of a shifted pair under the mask of 41_codec R130. -/
theorem toNat_shiftLeft_or_shiftRight_and_0x7F (a b : Byte) (m n : Nat) :
    ((a <<< m ||| b >>> n) &&& 0x7F).toNat = (a.toNat <<< m ||| b.toNat >>> n) &&& 0x7F := by
  rw [BitVec.toNat_and, toNat_shiftLeft_or_shiftRight_trunc]
  exact mod_256_and_0x7F _

end Sys2Proof.Laws

namespace Sys2Proof.Proofs

open Sys2Proof.Machine Sys2Proof.Laws

/-- Settles O1: the round trip of each row of the opcode table. -/
theorem decodingAnEncodingGivesTheInstruction :
    Obligations.DecodingAnEncodingGivesTheInstruction := roundTrip

/-- Settles O2: each format's table is searched by the part of the word that selects the row, and
the rest of the word is the row's operand. -/
theorem encodingADecodingGivesTheWord : Obligations.EncodingADecodingGivesTheWord := by
  intro c i h
  cases c with
  | wireOut w => exact encode_of_decode_wireOut h
  | wireIn w => exact encode_of_decode_wireIn h
  | rxSel w => exact encode_of_decode_rxSel h
  | ctlCmd w => exact encode_of_decode_ctlCmd h
  | stepSel w => exact encode_of_decode_stepSel h

/-- Settles O3: the tables are looked up by evaluation. -/
theorem wordsOfTheTablesDecode : Obligations.WordsOfTheTablesDecode :=
  ⟨rfl, rfl, rfl, rfl, rfl, rfl, rfl, rfl, rfl⟩

/-- Settles O5: R130's mask drops what a left shift carries past bit 7, so 8 bits are wide
enough. -/
theorem encodePacksTheFrame : Obligations.EncodePacksTheFrame := by
  intro f s
  refine ⟨encodeFrame f, rfl, BitVec.toNat_or .., BitVec.toNat_ushiftRight ..,
    toNat_shiftLeft_or_shiftRight_and_0x7F .., toNat_shiftLeft_or_shiftRight_and_0x7F ..,
    toNat_shiftLeft_or_shiftRight_and_0x7F .., ?_, BitVec.toNat_and .., encodeFrame_markersOk f⟩
  have hp5 : (encodeFrame f).p5.toNat = f.lever3.toNat <<< 3 % 256 &&& 0x7F :=
    (BitVec.toNat_and ..).trans (congrArg (· &&& 0x7F) (BitVec.toNat_shiftLeft ..))
  rw [hp5, mod_256_and_0x7F]

/-- Settles O6: the bytes of R131 are truncated to 8 bits by the width of a byte. -/
theorem decodeUnpacksTheFrame : Obligations.DecodeUnpacksTheFrame := by
  intro w s hm
  refine ⟨decodeFrame s.params.statusKeepMarker w, rfl, ?_,
    toNat_shiftLeft_or_shiftRight_trunc .., toNat_shiftLeft_or_shiftRight_trunc ..,
    toNat_shiftLeft_or_shiftRight_trunc .., toNat_shiftLeft_or_shiftRight_trunc .., rfl, ?_⟩
  · rw [decodeFrame, apply_ite BitVec.toNat, BitVec.toNat_and]
    rfl
  · obtain ⟨-, -, -, -, -, -, h6⟩ := (markersOk_iff_toNat w).1 hm
    exact (msb_byte w.p6).trans (decide_eq_false (by omega))

/-- Settles O9: on the decode side the marker that R131 masks away is the bit that R105 gives no
place. -/
theorem theFormulasAreTheBitTable : Obligations.TheFormulasAreTheBitTable := by
  refine ⟨encodeFrame_eq_wireOfBits, fun w hm => ?_⟩
  rw [decodeFrame_eq_bitsOfWire false hm]
  refine frame_ext_toNat ?_ rfl rfl rfl rfl rfl
  rw [if_neg Bool.false_ne_true, toNat_and_0x7F, (bitsOfWire_toNat w).1]

end Sys2Proof.Proofs
end

section
/-! PROOFS. Which guard each instruction is taken under (30_encoding R106, R108, R111), and what
follows for every instruction of an agent: model faults, held steps and that one step at most is
enabled (60_exceptions R288, R293, 00_scope R11). And that a move runs what it selects. -/

namespace Sys2Proof.Machine

variable {s : State}

/-! ### The three guards -/

/-- An instruction whose word is a step selector is its agent's step with that selector. -/
theorem exec_eq_takeStep {i : Instr} {sel : BitVec 8} (h : encode i = .stepSel sel) :
    ∃ a body, instrAgent i = some a ∧ ∀ s, exec i s = takeStep a sel body s := by
  cases i
  case codecEncode | codecDecode | rxUnsyncHi | rxUnsyncLo | rxStatusReadHi | rxStatusReadLo
    | rxP1ReadHi | rxP1ReadLo | rxP2ReadHi | rxP2ReadLo | rxP3ReadHi | rxP3ReadLo | rxP4ReadHi
    | rxP4ReadLo | rxP5ReadHi | rxP5ReadLo | openSession | closeSession | attachRec | detachRec
    | attachPlayer | detachPlayer | readStatus | readRdFailure | readTxFailure => cases h
  all_goals
    cases h
    exact ⟨_, _, rfl, fun _ => rfl⟩

/-- An instruction whose word is an `rx_sel` is a byte step on that word, and where the engine forms
the word its effect is the one the transition table gives. -/
theorem exec_eq_takeByteStep {i : Instr} {w : BitVec 11} (h : encode i = .rxSel w) :
    instrAgent i = some .rd ∧
      ∃ body, (∀ s, exec i s = takeByteStep w body s) ∧
        ∀ s, s.rxSel = w → body s = s.byteEffect := by
  cases i
  case rxUnsyncHi =>
    cases h
    refine ⟨rfl, State.acceptStatus, fun _ => rfl, fun s hw => ?_⟩
    obtain ⟨hs, hx⟩ := rxSel_eq_iff.1 hw
    exact acceptStatus_eq hs hx
  case rxUnsyncLo =>
    cases h
    refine ⟨rfl, State.discardByte, fun _ => rfl, fun s hw => ?_⟩
    obtain ⟨hs, hx⟩ := rxSel_eq_iff.1 hw
    exact discardLo_eq hs hx
  case rxStatusReadHi | rxP1ReadHi | rxP2ReadHi | rxP3ReadHi | rxP4ReadHi | rxP5ReadHi =>
    cases h
    refine ⟨rfl, State.discardByte, fun _ => rfl, fun s hw => ?_⟩
    obtain ⟨hs, hx⟩ := rxSel_eq_iff.1 hw
    exact discardHi_eq (by rw [hs]; decide) hx
  case rxStatusReadLo | rxP1ReadLo | rxP2ReadLo | rxP3ReadLo | rxP4ReadLo =>
    cases h
    refine ⟨rfl, State.acceptPayload, fun _ => rfl, fun s hw => ?_⟩
    obtain ⟨hs, hx⟩ := rxSel_eq_iff.1 hw
    exact acceptPayload_eq (by rw [hs]; decide) (by rw [hs]; decide) hx
  case rxP5ReadLo =>
    cases h
    refine ⟨rfl, State.completeFrame, fun _ => rfl, fun s hw => ?_⟩
    obtain ⟨hs, hx⟩ := rxSel_eq_iff.1 hw
    exact completeFrame_eq hs hx
  all_goals cases h

/-- Every instruction of an agent is taken under one of the three guards, which its word names. -/
theorem exec_guard {i : Instr} {a : Agent} (ha : instrAgent i = some a) :
    (∃ sel body, encode i = .stepSel sel ∧ ∀ s, exec i s = takeStep a sel body s) ∨
      (a = .rd ∧ ∃ w body, encode i = .rxSel w ∧ ∀ s, exec i s = takeByteStep w body s) ∨
      (a = .cu ∧ (∃ w, encode i = .ctlCmd w) ∧
        ∀ s, ∃ body, exec i s = takeCommand (legalOperand i) body s) := by
  cases hw : encode i with
  | wireOut w =>
    cases i
    case codecEncode => cases ha
    all_goals cases hw
  | wireIn w =>
    cases i
    case codecDecode => cases ha
    all_goals cases hw
  | stepSel sel =>
    obtain ⟨a', body, ha', hexec⟩ := exec_eq_takeStep hw
    obtain rfl := Option.some.inj (ha.symm.trans ha')
    exact .inl ⟨sel, body, rfl, hexec⟩
  | rxSel w =>
    obtain ⟨hrd, body, hexec, -⟩ := exec_eq_takeByteStep hw
    exact .inr (.inl ⟨Option.some.inj (ha.symm.trans hrd), w, body, rfl, hexec⟩)
  | ctlCmd w =>
    have hcu : a = .cu := by
      cases i
      case openSession | closeSession | attachRec | detachRec | attachPlayer | detachPlayer
        | readStatus | readRdFailure | readTxFailure => cases ha; rfl
      all_goals cases hw
    exact .inr (.inr ⟨hcu, ⟨w, rfl⟩, exec_eq_takeCommand ⟨w, hw⟩⟩)

/-! ### What the guards say of every instruction of an agent -/

/-- Once the run is faulted no instruction of an agent has a next state (60_exceptions R288). -/
theorem exec_of_faulted {i : Instr} {a : Agent} (ha : instrAgent i = some a)
    (hf : s.faulted = true) : exec i s = .fault .runFaulted := by
  obtain ⟨sel, body, -, hexec⟩ | ⟨-, w, body, -, hexec⟩ | ⟨-, -, hexec⟩ := exec_guard ha
  · rw [hexec, takeStep, if_pos hf]
  · rw [hexec, takeByteStep, if_pos hf]
  · obtain ⟨body, hexec⟩ := hexec s
    rw [hexec, takeCommand, if_pos hf]

/-- A reserved code in a state register of the agent is a model fault (60_exceptions R288). -/
theorem exec_of_reserved {i : Instr} {a : Agent} (ha : instrAgent i = some a)
    (hf : s.faulted = false) (hr : s.reservedCode a = true) : exec i s = .next s.modelFault := by
  have hnf : ¬s.faulted = true := ne_true_of_eq_false hf
  obtain ⟨sel, body, -, hexec⟩ | ⟨rfl, w, body, -, hexec⟩ | ⟨rfl, -, hexec⟩ := exec_guard ha
  · rw [hexec, takeStep_reserved hf hr]
  · rw [hexec, takeByteStep, if_neg hnf, if_pos hr]
  · obtain ⟨body, hexec⟩ := hexec s
    rw [hexec, takeCommand, if_neg hnf, if_pos hr]

/-- A step of an agent, by its selector. -/
theorem exec_step_guard {i : Instr} {a : Agent} {sel : BitVec 8} (ha : instrAgent i = some a)
    (hw : encode i = .stepSel sel) : ∃ body, ∀ s, exec i s = takeStep a sel body s := by
  obtain ⟨a', body, ha', hexec⟩ := exec_eq_takeStep hw
  obtain rfl := Option.some.inj (ha.symm.trans ha')
  exact ⟨body, hexec⟩

/-- A step whose selector is not the one formed is held (00_scope R11). -/
theorem exec_held {i : Instr} {a : Agent} {sel : BitVec 8} (h : s.ready a)
    (ha : instrAgent i = some a) (hw : encode i = .stepSel sel) (hs : selector a s ≠ some sel) :
    exec i s = .next s := by
  obtain ⟨body, hexec⟩ := exec_step_guard ha hw
  rw [hexec, takeStep_held h.1 h.2 hs]

/-- A step that changes something is the one whose selector the engine forms. -/
theorem selector_of_exec_ne {i : Instr} {a : Agent} {sel : BitVec 8} {t : State} (h : s.ready a)
    (ha : instrAgent i = some a) (hw : encode i = .stepSel sel) (hi : exec i s = .next t)
    (ht : t ≠ s) : selector a s = some sel := by
  obtain ⟨body, hexec⟩ := exec_step_guard ha hw
  rw [hexec] at hi
  obtain ⟨-, ⟨hr, -⟩ | ⟨-, hs, -⟩ | ⟨-, -, hheld⟩⟩ := takeStep_cases hi
  · exact absurd hr (ne_true_of_eq_false h.2)
  · exact hs
  · exact absurd hheld ht

/-- The word of an agent's instruction gives it back: every operand it has is well formed. -/
theorem wellFormed_of_instrAgent {i : Instr} {a : Agent} (ha : instrAgent i = some a) :
    wellFormed i = true := by
  cases i
  case codecEncode | codecDecode => cases ha
  all_goals rfl

/-! ### Reserved codes by their numbers (10_state R23, R25, R37, R43, R45) -/

theorem reservedCode_rd_of_toNat (h : 6 ≤ s.rdState.toNat ∨ s.syncState.toNat = 7) :
    s.reservedCode .rd = true := by
  have hrd : RD_FAILED.toNat = 5 := rfl
  have hsync : P5_READ.toNat = 6 := rfl
  simp only [State.reservedCode, Bool.or_eq_true, decide_eq_true_eq, BitVec.lt_def]
  omega

theorem reservedCode_tx_of_toNat (h : 10 ≤ s.txState.toNat) : s.reservedCode .tx = true :=
  decide_eq_true (BitVec.lt_def.2 h)

theorem reservedCode_pr_of_toNat (h : s.prState.toNat = 3) : s.reservedCode .pr = true :=
  decide_eq_true (BitVec.lt_def.2 h.ge)

theorem reservedCode_cu_of_toNat (h : 5 ≤ s.ssState.toNat) : s.reservedCode .cu = true :=
  decide_eq_true (BitVec.lt_def.2 h)

/-! ### The move taken -/

/-- A word that decodes to an instruction runs it. -/
theorem runCode_of_decode {c : Code} {i : Instr} (h : decode c = .instr i) :
    runCode c s = exec i s := by
  simp only [runCode, h]

theorem step_of_word {c : Code} {rest : List Turn} (hf : s.faulted = false)
    (ht : s.turns = .word c :: rest) : step s = runCode c s.popTurn := by
  simp only [step, hf, ht, Bool.false_eq_true, if_false]

theorem step_of_agent {a : Agent} {rest : List Turn} (hf : s.faulted = false)
    (ht : s.turns = .agent a :: rest) :
    step s = (selector a s).elim (.next s.popTurn) fun sel => runCode (.stepSel sel) s.popTurn := by
  simp only [step, hf, ht, Bool.false_eq_true, if_false]
  cases selector a s <;> rfl

end Sys2Proof.Machine

namespace Sys2Proof.Proofs

open Sys2Proof.Machine

/-- Settles O43: each of the three guards finds a reserved code before all else. -/
theorem reservedCodesAreModelFaults : Obligations.ReservedCodesAreModelFaults := by
  rintro i a s ha hf (⟨rfl, h⟩ | ⟨rfl, h⟩ | ⟨rfl, h⟩ | ⟨rfl, h⟩)
  · exact exec_of_reserved ha hf (reservedCode_rd_of_toNat h)
  · exact exec_of_reserved ha hf (reservedCode_tx_of_toNat h)
  · exact exec_of_reserved ha hf (reservedCode_pr_of_toNat h)
  · exact exec_of_reserved ha hf (reservedCode_cu_of_toNat h)

/-- Settles O44: each of the three guards stops in a faulted run, and so does a move. -/
theorem aFaultedRunHasNoStep : Obligations.AFaultedRunHasNoStep :=
  fun _ hf => ⟨if_pos hf, fun _ _ ha => exec_of_faulted ha hf⟩

/-- Settles O45: the guard of a step compares its selector with the one formed. -/
theorem aStepNotEnabledIsHeld : Obligations.AStepNotEnabledIsHeld :=
  fun _ _ _ _ ha hw h hs => exec_held h ha hw hs

/-- Settles O46: both steps have the selector their agent forms, hence the same word, and a word
has one meaning. -/
theorem oneStepPerAgentIsEnabled : Obligations.OneStepPerAgentIsEnabled := by
  intro i j a si sj s t u h hi hj hwi hwj hexi ht hexj hu
  have hsi := selector_of_exec_ne h hi hwi hexi ht
  have hsj := selector_of_exec_ne h hj hwj hexj hu
  have hword : encode i = encode j := by rw [hwi, hwj, Option.some.inj (hsi.symm.trans hsj)]
  have hinstr : Decoded.instr i = .instr j :=
    calc Decoded.instr i
      _ = decode (encode i) := (Laws.roundTrip i (wellFormed_of_instrAgent hi)).symm
      _ = decode (encode j) := by rw [hword]
      _ = .instr j := Laws.roundTrip j (wellFormed_of_instrAgent hj)
  exact Decoded.instr.inj hinstr

/-- Settles O14: the row is that of the word `{sync_state, x}`, whose effect is the transition
table's. -/
theorem aByteStepIsTheRowItsWordSelects : Obligations.AByteStepIsTheRowItsWordSelects := by
  intro s i h
  obtain ⟨-, body, hexec, hbody⟩ := exec_eq_takeByteStep (Laws.encode_of_decode_rxSel h).1
  rw [hexec, exec, execRdByteStep, takeStep, takeByteStep, hbody s rfl]
  simp only [and_true]

/-- Settles O4: a move's word is decoded and its instruction executed at the state without the
move. -/
theorem aStepRunsTheSelectedInstruction : Obligations.AStepRunsTheSelectedInstruction := by
  intro s i rest hf
  refine ⟨fun c ht hc => ?_, fun a sel ht hs hc => ?_, fun a ht hs => ?_⟩
  · rw [step_of_word hf ht, runCode_of_decode hc, State.popTurn_of_turns ht]
  · rw [step_of_agent hf ht, hs, Option.elim_some, runCode_of_decode hc, State.popTurn_of_turns ht]
  · rw [step_of_agent hf ht, hs, Option.elim_none, State.popTurn_of_turns ht]

end Sys2Proof.Proofs
end

section
/-! PROOFS. The steps of the Reader, the Transmitter, the Producer and the control unit, one by one,
as 42_synchronizer section 2 and 3, 43_transmitter sections 1 to 3 and 44_control section 2 state
them; and the model faults that a step finds (60_exceptions R288). Each clause is the step's row of
the selector table (30_encoding R112) and its effect. -/

namespace Sys2Proof.Machine

variable {s : State}

/-! ### Deadlines and the clock -/

/-- A step that reads the clock has its body as its effect where the clock has not gone back. -/
theorem takeStep_readingClock {a : Agent} {sel : BitVec 8} {body : State → State} (h : s.ready a)
    (hs : selector a s = some sel) (hb : s.clockBack = false) :
    takeStep a sel (fun s => s.readingClock body) s = .next (body s) := by
  rw [takeStep_enabled h.1 h.2 hs, State.readingClock_of_forward hb]

/-- A step that reads the clock is a model fault where the clock has gone back. -/
theorem takeStep_readingClock_of_back {a : Agent} {sel : BitVec 8} {body : State → State}
    (h : s.ready a) (hs : selector a s = some sel) (hb : s.clockBack = true) :
    takeStep a sel (fun s => s.readingClock body) s = .next s.modelFault := by
  rw [takeStep_enabled h.1 h.2 hs, State.readingClock_of_back hb]

/-- A deadline in the future has not been reached. -/
theorem not_due_of_lt {deadline : Nat} (hb : s.clockBack = false) (h : s.now < deadline) :
    ¬(s.clockBack = true ∨ deadline ≤ s.now) := by
  simp only [hb, Bool.false_eq_true, false_or]
  omega

/-! ### The Reader -/

theorem exec_rdReadData_of_answer {bytes : List Byte} (h : s.ready .rd) (hs : s.rdState = RD_READ)
    (hanswer : s.envRead = some (.data bytes)) (hsome : bytes ≠ []) :
    exec .rdReadData s =
      .next (if s.params.rdBufBytes < bytes.length then s.modelFault
        else
          { s with
            rdBuf := Memory.writeFrom Config.unwrittenByte s.rdBuf 0 bytes
            rdLen := bytes.length
            rdPos := 0
            envRead := none
            rdState := RD_PROCESS }) := by
  rw [exec, execRdReadData,
    takeStep_enabled h.1 h.2 ((selector_rdReadData h.2).2 ⟨hs, bytes, hanswer, hsome⟩)]
  simp only [hanswer]

theorem exec_rdReadFail_of_error {code : Byte} (h : s.ready .rd) (hs : s.rdState = RD_READ)
    (hanswer : s.envRead = some (.error code)) :
    exec .rdReadFail s = .next ({ s with envRead := none }.raiseFail .rd code) := by
  rw [exec, execRdReadFail,
    takeStep_enabled h.1 h.2 ((selector_rdReadFail h.2).2 ⟨hs, code, hanswer⟩)]
  simp only [hanswer]

theorem exec_rdDispatchExt_of_entry {id : Byte} (h : s.ready .rd) (hs : s.rdState = RD_DISPATCH)
    (hentry : s.dispList[s.dispIdx]? = some id) (hext : id ≠ LISTENER) :
    exec .rdDispatchExt s =
      .next (if s.envAck = some id then
          { s.emit (.recDeliver id s.dispFrame) with dispIdx := s.dispIdx + 1, envAck := none }
        else s) := by
  rw [exec, execRdDispatchExt,
    takeStep_enabled h.1 h.2 ((selector_rdDispatchExt h.2).2 ⟨hs, id, hentry, hext⟩)]
  simp only [hentry]

/-! ### The Transmitter -/

/-- The rate limit of an underrun, as the statements write it. -/
theorem underrunNotify_of_due
    (h : s.player ≠ 0 ∧ ∀ last, s.underrunLast = some last →
      (s.params.underrunMinIntervalMs : Int) ≤ (s.now : Int) - last) :
    s.underrunNotify = { s.emit (.underrun s.player) with underrunLast := some s.now } :=
  if_pos ⟨h.1, State.underrunDue_iff.2 h.2⟩

theorem underrunNotify_of_not_due
    (h : ¬(s.player ≠ 0 ∧ ∀ last, s.underrunLast = some last →
      (s.params.underrunMinIntervalMs : Int) ≤ (s.now : Int) - last)) :
    s.underrunNotify = s :=
  if_neg fun hdue => h ⟨hdue.1, State.underrunDue_iff.1 hdue.2⟩

theorem exec_txSwapUnderrun_of_empty (h : s.ready .tx) (hs : s.txState = TX_SWAP)
    (hlock : s.lock = false) (hempty : s.cnt s.client = 0) (hb : s.clockBack = false) :
    exec .txSwapUnderrun s =
      .next { s.underrunNotify with
        txWaitUntil := s.now + s.params.underrunRetryMs
        txState := TX_UNDERRUN_WAIT } :=
  takeStep_readingClock h ((selector_txSwapUnderrun h.2).2 ⟨hs, hlock, hempty⟩) hb

/-- The write of `TX.UNDERRUN_RETRY`'s conditional need, as a value of `need` (43_transmitter
R197). -/
theorem retryNeed_eq (s : State) :
    (if s.need = false ∧ s.cnt s.client = 0 then s.raiseNeed else s) =
      { s with need := s.need || decide (s.cnt s.client = 0) } := by
  by_cases hn : s.need = true
  · rw [if_neg (by simp [hn]), hn, Bool.true_or, ← hn]
  · have hn : s.need = false := Bool.eq_false_of_not_eq_true hn
    by_cases hc : s.cnt s.client = 0
    · rw [if_pos ⟨hn, hc⟩, decide_eq_true hc, Bool.or_true, State.raiseNeed]
    · rw [if_neg fun h => hc h.2, decide_eq_false hc, Bool.or_false]

theorem exec_txThrottlePass_of_mark (h : s.ready .tx) (hs : s.txState = TX_THROTTLE)
    (hmark : s.fill ≤ s.params.hwm) :
    exec .txThrottlePass s =
      .next ((s.bufRead s.wsel s.widx).elim s.modelFault fun f =>
        { s.emit (.txWrite (encodeFrame f)) with
          txOut := encodeFrame f
          txState := TX_WRITE_WAIT }) := by
  rw [exec, execTxThrottlePass,
    takeStep_enabled h.1 h.2 ((selector_txThrottlePass h.2).2 ⟨hs, hmark⟩)]
  cases s.bufRead s.wsel s.widx <;> rfl

theorem exec_txWriteFail_of_error {code : Byte} (h : s.ready .tx) (hs : s.txState = TX_WRITE_WAIT)
    (hanswer : s.envWrite = some (.error code)) :
    exec .txWriteFail s = .next ({ s with envWrite := none }.raiseFail .tx code) := by
  rw [exec, execTxWriteFail,
    takeStep_enabled h.1 h.2 ((selector_txWriteFail h.2).2 ⟨hs, code, hanswer⟩)]
  simp only [hanswer]

/-! ### The Producer -/

theorem bufWriteFrom_of_not_fits {b : Bool} {i : Nat} {frames : List Frame}
    (h : ¬(frames = [] ∨ i + frames.length ≤ s.params.txBufFrames)) :
    s.bufWriteFrom b i frames = none := if_neg h

theorem exec_prPullDone_of_answer {frames : List Frame} (h : s.ready .pr)
    (hs : s.prState = PR_PULL_WAIT) (hanswer : s.envPull = some frames) :
    exec .prPullDone s =
      .next (if s.pullMax < frames.length then s.modelFault
        else (s.bufWriteFrom s.client (s.cnt s.client) frames).elim s.modelFault fun t =>
          { t.setCnt s.client (s.cnt s.client + frames.length) with
            lock := false
            need := false
            envPull := none
            prState := PR_WAIT_NEED }) := by
  rw [exec, execPrPullDone, takeStep_enabled h.1 h.2
    ((selector_prPullDone h.2).2 ⟨hs, by rw [hanswer, Option.isSome_some]⟩)]
  simp only [hanswer]
  cases s.bufWriteFrom s.client (s.cnt s.client) frames <;> rfl

/-- Both buffers and both counts of a state with a buffer and a count set. -/
theorem State.setBuf_eq (s : State) (b : Bool) (m : Memory Frame) :
    s.setBuf b m = { s with buf0 := if b then s.buf0 else m, buf1 := if b then m else s.buf1 } := by
  cases b <;> rfl

theorem State.client_ne_wsel (s : State) : s.wsel ≠ s.client := (Bool.not_ne_self s.wsel).symm

/-- The client buffer after a pull's frames and their number are stored in it. -/
theorem pulled_buf_client (s : State) (m : Memory Frame) (n : Nat) :
    ((s.setBuf s.client m).setCnt s.client n).buf s.client = m := by
  rw [State.setCnt_buf, State.setBuf_buf, if_pos rfl]

/-- The write buffer is not the one a pull's frames are stored in. -/
theorem pulled_buf_wsel (s : State) (m : Memory Frame) (n : Nat) :
    ((s.setBuf s.client m).setCnt s.client n).buf s.wsel = s.buf s.wsel := by
  rw [State.setCnt_buf, State.setBuf_buf, if_neg s.client_ne_wsel]

theorem exec_prPullDone_of_fits {frames : List Frame} (h : s.ready .pr)
    (hs : s.prState = PR_PULL_WAIT) (hanswer : s.envPull = some frames)
    (hasked : frames.length ≤ s.pullMax)
    (hfits : s.cnt s.client + frames.length ≤ s.params.txBufFrames) :
    exec .prPullDone s =
      .next { (s.setBuf s.client
            (Memory.writeFrom Config.unwrittenFrame (s.buf s.client) (s.cnt s.client)
              frames)).setCnt s.client (s.cnt s.client + frames.length) with
        lock := false
        need := false
        envPull := none
        prState := PR_WAIT_NEED } := by
  rw [exec_prPullDone_of_answer h hs hanswer, if_neg (Nat.not_lt.2 hasked),
    State.bufWriteFrom_of_fits (.inr hfits), Option.elim_some]

/-! ### The answers of the environment -/

theorem offerRead_eq_ite (s : State) (r : ReadAnswer) :
    s.offerRead r =
      if s.rdState = RD_READ ∧ s.envRead = none then { s with envRead := some r }
      else s.modelFault := by
  simp [State.offerRead, State.readOutstanding]

theorem offerWrite_eq_ite (s : State) (r : WriteAnswer) :
    s.offerWrite r =
      if s.txState = TX_WRITE_WAIT ∧ s.envWrite = none then { s with envWrite := some r }
      else s.modelFault := by
  simp [State.offerWrite, State.writeOutstanding]

theorem offerPull_eq_ite (s : State) (frames : List Frame) :
    s.offerPull frames =
      if s.prState = PR_PULL_WAIT ∧ s.envPull = none then { s with envPull := some frames }
      else s.modelFault := by
  simp [State.offerPull, State.pullOutstanding]

theorem offerAck_eq_ite (s : State) (id : Byte) :
    s.offerAck id =
      if s.rdState = RD_DISPATCH ∧ s.dispList[s.dispIdx]? = some id ∧ id ≠ 0 ∧ s.envAck = none then
        { s with envAck := some id }
      else s.modelFault := by
  simp [State.offerAck, State.ackOutstanding, hostId, and_assoc]

theorem offerDevice_eq_ite (s : State) (r : DeviceAnswer) :
    s.offerDevice r =
      if s.ssState = SS_OPENING ∧ s.envDevice = none then { s with envDevice := some r }
      else s.modelFault := by
  simp [State.offerDevice, State.deviceOutstanding]

/-- What a move of the environment makes of the state, without the move; `none` for the moves of the
agents. -/
def Turn.answered (s : State) : Turn → Option State
  | .word _ => none
  | .agent _ => none
  | .read r => some (s.offerRead r)
  | .write r => some (s.offerWrite r)
  | .pull frames => some (s.offerPull frames)
  | .ack id => some (s.offerAck id)
  | .device r => some (s.offerDevice r)
  | .clock t => some (s.setClock t)

/-- A move of the environment is taken at the state without it. -/
theorem step_of_answer {turn : Turn} {rest : List Turn} {t : State} (hf : s.faulted = false)
    (ht : s.turns = turn :: rest) (h : turn.answered { s with turns := rest } = some t) :
    step s = .next t := by
  rw [← State.popTurn_of_turns ht] at h
  cases turn
  case word => cases h
  case agent => cases h
  all_goals
    cases h
    simp only [step, hf, ht, Bool.false_eq_true, if_false]

end Sys2Proof.Machine

namespace Sys2Proof.Proofs

open Sys2Proof.Machine

/-- Settles O17: the bytes are written from index 0 on, and `Memory.read_writeFrom` reads them. -/
theorem aReadFillsTheReaderBuffer : Obligations.AReadFillsTheReaderBuffer := by
  intro s bytes h hs hanswer hsome hfits
  refine ⟨_, (exec_rdReadData_of_answer h hs hanswer hsome).trans
    (congrArg _ (if_neg (Nat.not_lt.2 hfits))), fun hwf i => ?_, rfl⟩
  refine (Memory.read_writeFrom hwf 0 i bytes).trans ?_
  simp only [Nat.zero_le, true_and, Nat.zero_add, Nat.sub_zero]
  rfl

/-- Settles O18: the answer on offer selects the step. -/
theorem anEmptyReadSleepsAndAReadErrorEnds : Obligations.AnEmptyReadSleepsAndAReadErrorEnds := by
  intro s h hs
  refine ⟨fun hanswer hb => ?_, fun code hanswer => exec_rdReadFail_of_error h hs hanswer, rfl, rfl⟩
  exact takeStep_readingClock h ((selector_rdReadEmpty h.2).2 ⟨hs, hanswer⟩) hb

/-- Settles O19: each of the three steps is enabled exactly under its clause's condition. -/
theorem theReaderMovesOn : Obligations.TheReaderMovesOn := by
  intro s h
  refine ⟨fun hs hb hdue => ?_, fun hs hb hearly => ?_, fun hs hused => ?_, fun hs hend => ?_,
    rfl, rfl, rfl⟩
  · exact takeStep_readingClock h ((selector_rdSleepDone h.2).2 ⟨hs, .inr hdue⟩) hb
  · exact exec_held h rfl rfl fun hsel =>
      not_due_of_lt hb hearly ((selector_rdSleepDone h.2).1 hsel).2
  · rw [exec, execRdBufDone, takeStep_enabled h.1 h.2 ((selector_rdBufDone h.2).2 ⟨hs, hused⟩)]
    rfl
  · rw [exec, execRdDispatchEnd,
      takeStep_enabled h.1 h.2 ((selector_rdDispatchEnd h.2).2 ⟨hs, hend⟩)]
    rfl

/-- Settles O20: the step is the one of an entry that is not the listener's. -/
theorem anExternalRecorderIsDelivered : Obligations.AnExternalRecorderIsDelivered := by
  intro s id h hs hentry hext
  rw [exec_rdDispatchExt_of_entry h hs hentry hext]
  exact ⟨fun hack => congrArg _ (if_pos hack), fun hack => congrArg _ (if_neg hack)⟩

/-- Settles O22: a need that is out disables the two steps that raise one. -/
theorem aNeedIsRaisedOnlyWhereNoneIsOut : Obligations.ANeedIsRaisedOnlyWhereNoneIsOut := by
  intro s h
  refine ⟨fun hs hn => ?_, fun hs hn => ?_, fun hs hn => ?_, fun hs hn => ?_, rfl, rfl⟩
  · rw [exec, execTxPreload, takeStep_enabled h.1 h.2 ((selector_txPreload h.2).2 ⟨hs, hn⟩)]
    rfl
  · exact exec_held h rfl rfl fun hsel =>
      absurd hn (ne_true_of_eq_false ((selector_txPreload h.2).1 hsel).2)
  · rw [exec, execTxHalfNeed, takeStep_enabled h.1 h.2 ((selector_txHalfNeed h.2).2 ⟨hs, hn⟩)]
    rfl
  · exact exec_held h rfl rfl fun hsel =>
      absurd hn (ne_true_of_eq_false ((selector_txHalfNeed h.2).1 hsel).2)

/-- Settles O23: the lock disables both steps of `TX_SWAP`. -/
theorem aSwapExchangesTheBuffers : Obligations.ASwapExchangesTheBuffers := by
  intro s h hs
  refine ⟨fun hlock hready => ?_, fun hlock => ⟨?_, ?_⟩, rfl⟩
  · rw [exec, execTxSwapOk,
      takeStep_enabled h.1 h.2 ((selector_txSwapOk h.2).2 ⟨hs, hlock, hready⟩)]
  · exact exec_held h rfl rfl fun hsel =>
      absurd hlock (ne_true_of_eq_false ((selector_txSwapOk h.2).1 hsel).2.1)
  · exact exec_held h rfl rfl fun hsel =>
      absurd hlock (ne_true_of_eq_false ((selector_txSwapUnderrun h.2).1 hsel).2.1)

/-- Settles O24: the two clauses are the two outcomes of `UnderrunNotify`. -/
theorem anUnderrunIsNotifiedAtMostOncePerInterval :
    Obligations.AnUnderrunIsNotifiedAtMostOncePerInterval := by
  intro s h hs hlock hempty hb
  rw [exec_txSwapUnderrun_of_empty h hs hlock hempty hb]
  refine ⟨fun hdue => ?_, fun hdue => ?_, rfl⟩
  · rw [underrunNotify_of_due hdue]
    rfl
  · rw [underrunNotify_of_not_due hdue]

/-- Settles O25: a need that is out, or frames that wait, leave `need` as it is. -/
theorem anUnderrunIsRetried : Obligations.AnUnderrunIsRetried := by
  intro s h hs hb
  refine ⟨fun hdue => ?_, fun hearly => ?_, rfl⟩
  · refine (takeStep_readingClock h ((selector_txUnderrunRetry h.2).2 ⟨hs, .inr hdue⟩) hb).trans ?_
    rw [retryNeed_eq]
    rfl
  · exact exec_held h rfl rfl fun hsel =>
      not_due_of_lt hb hearly ((selector_txUnderrunRetry h.2).1 hsel).2

/-- Settles O27: the check of the mark enables the step, and the slot it reads is inside the
buffer. -/
theorem aWriteIssuesAtOrBelowTheMark : Obligations.AWriteIssuesAtOrBelowTheMark := by
  intro s h hs
  refine ⟨fun hmark hslot => ?_, fun hmark => ?_, rfl⟩
  · rw [exec_txThrottlePass_of_mark h hs (BitVec.le_def.2 hmark), State.bufRead_of_lt hslot]
    rfl
  · exact exec_held h rfl rfl fun hsel =>
      BitVec.not_le.2 (BitVec.lt_def.2 hmark) ((selector_txThrottlePass h.2).1 hsel).2

/-- Settles O28: the mark and the deadline are the conditions of the two steps. -/
theorem aboveTheMarkTheLoopWaits : Obligations.AboveTheMarkTheLoopWaits := by
  intro s h hb
  refine ⟨fun hs hmark => ?_, fun hs hdue => ?_, fun hs hearly => ?_, rfl, rfl⟩
  · exact takeStep_readingClock h
      ((selector_txThrottleHold h.2).2 ⟨hs, BitVec.lt_def.2 hmark⟩) hb
  · exact takeStep_readingClock h ((selector_txThrottleRecheck h.2).2 ⟨hs, .inr hdue⟩) hb
  · exact exec_held h rfl rfl fun hsel =>
      not_due_of_lt hb hearly ((selector_txThrottleRecheck h.2).1 hsel).2

/-- Settles O29: the answer on offer selects the step. -/
theorem aWriteEndsOkOrEndsTheMainLoop : Obligations.AWriteEndsOkOrEndsTheMainLoop := by
  intro s h hs
  refine ⟨fun hanswer => ?_, fun code hanswer => exec_txWriteFail_of_error h hs hanswer, rfl, rfl⟩
  rw [exec, execTxWriteOk, takeStep_enabled h.1 h.2 ((selector_txWriteOk h.2).2 ⟨hs, hanswer⟩)]

/-- Settles O30: the attached Player decides which of the two steps meets the need. -/
theorem aNeedIsPulledOrMetWithNothing : Obligations.ANeedIsPulledOrMetWithNothing := by
  intro s h hs
  refine ⟨fun hn hp => ?_, fun hn hp => ?_, fun hn => ⟨?_, ?_⟩, rfl, rfl⟩
  · rw [exec, execPrPullIssue, takeStep_enabled h.1 h.2 ((selector_prPullIssue h.2).2 ⟨hs, hn, hp⟩)]
    rfl
  · rw [exec, execPrPullNone, takeStep_enabled h.1 h.2 ((selector_prPullNone h.2).2 ⟨hs, hn, hp⟩)]
  · exact exec_held h rfl rfl fun hsel =>
      absurd ((selector_prPullIssue h.2).1 hsel).2.1 (ne_true_of_eq_false hn)
  · exact exec_held h rfl rfl fun hsel =>
      absurd ((selector_prPullNone h.2).1 hsel).2.1 (ne_true_of_eq_false hn)

/-- Settles O31: the frames are written behind the ready ones of the client buffer, and the write
buffer is the other one. -/
theorem aPullFillsTheClientBuffer : Obligations.APullFillsTheClientBuffer := by
  intro s frames h hs hanswer hasked hfits
  refine ⟨_, exec_prPullDone_of_fits h hs hanswer hasked hfits, fun hwf j => ?_, fun j => ?_, ?_,
    ?_,
    ?_⟩
  · exact (congrArg (Memory.read _ · j) (pulled_buf_client s _ _)).trans
      (Memory.read_writeFrom hwf _ j frames)
  · exact congrArg (Memory.read _ · j) (pulled_buf_wsel s _ _)
  · exact (State.setCnt_cnt ..).trans (if_pos rfl)
  · exact (State.setCnt_cnt ..).trans ((if_neg s.client_ne_wsel).trans (State.setBuf_cnt ..))
  · rw [State.setCnt_eq, State.setBuf_eq]

/-- Settles O32: OPEN looks at the session's state, the device's answer selects the control unit's
step. -/
theorem openAsksForTheDevice : Obligations.OpenAsksForTheDevice := by
  refine ⟨fun s dev h => ⟨fun hs => ?_, fun hs => ?_⟩, fun s h hs => ⟨fun hanswer => ?_,
    fun hanswer => ?_⟩, fun _ => rfl, rfl, rfl⟩
  · rw [exec, execOpenSession, takeCommand_of_legal h rfl, if_neg (not_not_intro hs)]
  · rw [exec, execOpenSession, takeCommand_of_legal h rfl, if_pos hs]
    rfl
  · rw [exec, execCuDeviceOpenOk,
      takeStep_enabled h.1 h.2 ((selector_cuDeviceOpenOk h.2).2 ⟨hs, hanswer⟩)]
  · rw [exec, execCuDeviceOpenFail,
      takeStep_enabled h.1 h.2 ((selector_cuDeviceOpenFail h.2).2 ⟨hs, hanswer⟩)]
    rfl

/-- Settles O33: the two starts are enabled by the session's state alone. -/
theorem theLoopsAreStarted : Obligations.TheLoopsAreStarted := by
  intro s h
  refine ⟨fun hs => ?_, fun hs => ?_, rfl, rfl⟩
  · rw [exec, execCuStartRd, takeStep_enabled h.1 h.2 ((selector_cuStartRd h.2).2 hs)]
    rfl
  · rw [exec, execCuStartTx, takeStep_enabled h.1 h.2 ((selector_cuStartTx h.2).2 hs)]
    rfl

/-- Settles O41: each step checks the value it uses before it writes anything. -/
theorem valuesOutOfRangeAreModelFaults : Obligations.ValuesOutOfRangeAreModelFaults := by
  intro s
  refine ⟨fun bytes h hs hanswer hlong hsome => ?_, fun frames h hs hanswer hmany => ?_,
    fun frames h hs hanswer hasked hsome hover => ?_, fun h hs hmark hslot => ?_⟩
  · rw [exec_rdReadData_of_answer h hs hanswer (List.ne_nil_of_length_pos hsome), if_pos hlong]
    rfl
  · rw [exec_prPullDone_of_answer h hs hanswer, if_pos hmany]
    rfl
  · have hover : ¬(frames = [] ∨ s.cnt s.client + frames.length ≤ s.params.txBufFrames) :=
      not_or.2 ⟨hsome, Nat.not_le.2 hover⟩
    rw [exec_prPullDone_of_answer h hs hanswer, if_neg (Nat.not_lt.2 hasked),
      bufWriteFrom_of_not_fits hover]
    rfl
  · rw [exec_txThrottlePass_of_mark h hs hmark, State.bufRead_of_le hslot]
    rfl

/-- Settles O42: the six steps are those that read the clock, and the lifted hold lets the two
sleeps and the two waits be tried. -/
theorem aClockGoneBackIsAModelFault : Obligations.AClockGoneBackIsAModelFault := by
  intro s hf
  refine ⟨fun t rest ht => ?_, fun hb hr => ⟨?_, ?_⟩, fun hb hr => ⟨?_, ?_, ?_, ?_⟩⟩
  · exact step_of_answer hf ht rfl
  · rintro h
    exact takeStep_readingClock_of_back ⟨hf, hr⟩ ((selector_rdReadEmpty hr).2 h) hb
  · intro hs
    exact takeStep_readingClock_of_back ⟨hf, hr⟩ ((selector_rdSleepDone hr).2 ⟨hs, .inl hb⟩) hb
  · intro h
    exact takeStep_readingClock_of_back ⟨hf, hr⟩ ((selector_txSwapUnderrun hr).2 h) hb
  · intro hs
    exact takeStep_readingClock_of_back ⟨hf, hr⟩ ((selector_txUnderrunRetry hr).2 ⟨hs, .inl hb⟩) hb
  · intro h
    exact takeStep_readingClock_of_back ⟨hf, hr⟩ ((selector_txThrottleHold hr).2 h) hb
  · intro hs
    exact takeStep_readingClock_of_back ⟨hf, hr⟩
      ((selector_txThrottleRecheck hr).2 ⟨hs, .inl hb⟩) hb

/-- Settles O40: an answer is compared with the state of the agent that waits for it. -/
theorem answersNeedARequest : Obligations.AnswersNeedARequest := by
  intro s rest hf
  refine ⟨fun r ht => ?_, fun r ht => ?_, fun frames ht => ?_, fun id ht => ?_, fun r ht => ?_⟩
  · rw [step_of_answer hf ht rfl, offerRead_eq_ite]
    exact ⟨fun hout => congrArg _ (if_pos hout), fun hs => congrArg _ (if_neg fun h => hs h.1)⟩
  · rw [step_of_answer hf ht rfl, offerWrite_eq_ite]
    exact ⟨fun hout => congrArg _ (if_pos hout), fun hs => congrArg _ (if_neg fun h => hs h.1)⟩
  · rw [step_of_answer hf ht rfl, offerPull_eq_ite]
    exact ⟨fun hout => congrArg _ (if_pos hout), fun hs => congrArg _ (if_neg fun h => hs h.1)⟩
  · rw [step_of_answer hf ht rfl, offerAck_eq_ite]
    refine ⟨fun hout => congrArg _ (if_pos hout), fun hno => congrArg _ (if_neg ?_)⟩
    rintro ⟨hs, hentry, hext, -⟩
    obtain h | h | h := hno
    · exact h hs
    · exact h hentry
    · exact hext h
  · rw [step_of_answer hf ht rfl, offerDevice_eq_ite]
    exact ⟨fun hout => congrArg _ (if_pos hout), fun hs => congrArg _ (if_neg fun h => hs h.1)⟩

end Sys2Proof.Proofs
end

section
/-! PROOFS. Every move of the machine, and what holds of each (10_state R22, R46, R52,
43_transmitter R216, 70_reset R322). `Move` puts the effects of the instructions and the moves of
the environment side by side, so that a rule about every step is one case split; the effects that
choose a field by a condition are written first as one update of the state. -/

namespace Sys2Proof.Machine

variable {s t : State} {i : Instr}

/-! ### Effects with a choice, as one update of the state -/

/-- A byte step consumes the byte and writes the synchronizer's fields, those of the dispatch and
the Reader's state. -/
theorem byteEffect_eq (s : State) :
    s.byteEffect =
      { s with
        rdPos := s.rdPos + 1
        syncWork := s.byteEffect.syncWork
        syncState := s.byteEffect.syncState
        dispFrame := s.byteEffect.dispFrame
        dispList := s.byteEffect.dispList
        dispIdx := s.byteEffect.dispIdx
        rdState := s.byteEffect.rdState } := by
  obtain ⟨-, -, h⟩ | ⟨-, -, h⟩ | ⟨-, -, h⟩ | ⟨-, -, -, h⟩ | ⟨-, -, h⟩ := byteEffect_cases s <;>
    rw [h] <;> rfl

/-- A notification writes the trace and its time. -/
theorem underrunNotify_eq (s : State) :
    s.underrunNotify =
      { s with
        trace := s.underrunNotify.trace
        underrunLast := s.underrunNotify.underrunLast } := by
  obtain ⟨-, -, h⟩ | ⟨-, h⟩ := s.underrunNotify_cases
  · rw [h]; rfl
  · rw [h]

/-- The state a CLOSE leaves when it closes both loops: stopped, and the Producer and the registry
as the Transmitter's part leaves them. -/
theorem closed_eq {txClosed rdClosed : State}
    (tx : s.txState = TX_STOPPED ∧ txClosed = s ∨
      s.txState ≠ TX_STOPPED ∧ s.txRunning = false ∧ s.prState ≠ PR_PULL_WAIT ∧
        txClosed = s.txClose)
    (rd : s.rdState = RD_STOPPED ∧ rdClosed = txClosed ∨
      s.rdState ≠ RD_STOPPED ∧ rdClosed = txClosed.rdClose) :
    rdClosed =
      { s with
        rdState := RD_STOPPED
        txState := TX_STOPPED
        prState := txClosed.prState
        recReg := txClosed.recReg } := by
  obtain ⟨htx, rfl⟩ | ⟨-, -, -, rfl⟩ := tx <;> obtain ⟨hrd, rfl⟩ | ⟨-, rfl⟩ := rd
  · rw [← htx, ← hrd]
  · rw [← htx]; rfl
  · rw [← hrd]; rfl
  · rfl

/-! ### The moves -/

/-- `Move s t`: a move taken in `s`, and used up, has left `t`. -/
inductive Move : State → State → Prop where
  /-- An agent with no selector, a held step or a word that selects nothing. -/
  | idle {s : State} : Move s s
  | effect {i : Instr} {s t : State} (effect : Effect i s t) : Move s t
  | read {s : State} {r : ReadAnswer} (at_ : s.rdState = RD_READ) (free : s.envRead = none) :
    Move s { s with envRead := some r }
  | write {s : State} {r : WriteAnswer} (at_ : s.txState = TX_WRITE_WAIT)
    (free : s.envWrite = none) : Move s { s with envWrite := some r }
  | pull {s : State} {frames : List Frame} (at_ : s.prState = PR_PULL_WAIT)
    (free : s.envPull = none) : Move s { s with envPull := some frames }
  | ack {s : State} {id : Byte} (at_ : s.rdState = RD_DISPATCH)
    (entry : s.dispList[s.dispIdx]? = some id) (ext : id ≠ 0) (free : s.envAck = none) :
    Move s { s with envAck := some id }
  | device {s : State} {r : DeviceAnswer} (at_ : s.ssState = SS_OPENING)
    (free : s.envDevice = none) : Move s { s with envDevice := some r }
  | clock {s : State} {now : Nat} : Move s (s.setClock now)

/-- A model fault that no instruction finds. -/
theorem Move.fault : Move s s.modelFault := .effect (i := .rdByteStep) .fault

/-- A command with a reserved opcode is taken as one with an illegal operand (44_control R256). -/
theorem reservedCommand_eq_exec (s : State) : reservedCommand s = exec (.readStatus 1) s := by
  rw [reservedCommand, exec, execReadStatus, takeCommand, takeCommand]
  rfl

/-- An instruction executed is a move. -/
theorem move_of_exec (h : exec i s = .next t) : Move s t := by
  obtain rfl | heff := exec_cases h
  · exact .idle
  · exact .effect heff

/-- Everything a step of the machine can do, if it answers a next state: it idles, or a move is
taken at the state without it. -/
theorem step_move (h : step s = .next t) : t = s ∨ Move s.popTurn t := by
  obtain ⟨-, rfl | rfl | rfl | ⟨i, hi⟩ | hc | ⟨r, rfl⟩ | ⟨r, rfl⟩ | ⟨fs, rfl⟩ | ⟨id, rfl⟩ |
    ⟨r, rfl⟩ | ⟨now, rfl⟩⟩ := step_cases h
  · exact .inl rfl
  · exact .inr .idle
  · exact .inr .fault
  · exact .inr (move_of_exec hi)
  · exact .inr (move_of_exec ((reservedCommand_eq_exec _).symm.trans hc))
  · obtain ⟨hat, hfree, h⟩ | h := offerRead_cases s.popTurn r <;> rw [h]
    exacts [.inr (.read hat hfree), .inr .fault]
  · obtain ⟨hat, hfree, h⟩ | h := offerWrite_cases s.popTurn r <;> rw [h]
    exacts [.inr (.write hat hfree), .inr .fault]
  · obtain ⟨hat, hfree, h⟩ | h := offerPull_cases s.popTurn fs <;> rw [h]
    exacts [.inr (.pull hat hfree), .inr .fault]
  · obtain ⟨hat, hentry, hext, hfree, h⟩ | h := offerAck_cases s.popTurn id <;> rw [h]
    exacts [.inr (.ack hat hentry hext hfree), .inr .fault]
  · obtain ⟨hat, hfree, h⟩ | h := offerDevice_cases s.popTurn r <;> rw [h]
    exacts [.inr (.device hat hfree), .inr .fault]
  · exact .inr .clock

/-- What the use of a move and every move keep, every step keeps. -/
theorem step_keeps {P : State → Prop} (pop : P s → P s.popTurn)
    (move : Move s.popTurn t → P s.popTurn → P t) (hs : P s) (h : step s = .next t) : P t := by
  obtain rfl | hmove := step_move h
  · exact hs
  · exact move hmove (pop hs)

/-! ### The agent of an instruction, by its word -/

theorem instrAgent_of_ctlCmd (h : ∃ w, encode i = .ctlCmd w) : instrAgent i = some .cu := by
  obtain ⟨w, hw⟩ := h
  cases i
  case openSession | closeSession | attachRec | detachRec | attachPlayer | detachPlayer | readStatus
    | readRdFailure | readTxFailure => rfl
  all_goals cases hw

theorem instrAgent_of_row (h : i = .rdByteStep ∨ encode i = .rxSel s.rxSel) :
    instrAgent i = some .rd := by
  obtain rfl | h := h
  · rfl
  · exact (exec_eq_takeByteStep h).1

/-! ### What no step undoes -/

theorem Effect.misuse_params (h : Effect i s t) :
    (s.misuse = true → t.misuse = true) ∧ t.params = s.params := by
  cases h
  case misuse | closePart => exact ⟨fun _ => rfl, rfl⟩
  case byteStep => rw [byteEffect_eq]; exact ⟨id, rfl⟩
  case swapUnderrun => rw [underrunNotify_eq]; exact ⟨id, rfl⟩
  case underrunRetry => rw [retryNeed_eq]; exact ⟨id, rfl⟩
  case drainEnd => rw [State.setCnt_eq]; exact ⟨id, rfl⟩
  case pullDone => rw [State.setCnt_eq, State.setBuf_eq]; exact ⟨id, rfl⟩
  case closeBoth tx _ rd => rw [closed_eq tx rd]; exact ⟨id, rfl⟩
  all_goals exact ⟨id, rfl⟩

theorem Move.misuse_params (h : Move s t) :
    (s.misuse = true → t.misuse = true) ∧ t.params = s.params := by
  cases h with
  | effect heff => exact heff.misuse_params
  | _ => exact ⟨id, rfl⟩

/-! ### Notifications -/

/-- From `s` to `t` no notification is emitted. -/
def EmitsNoUnderrun (s t : State) : Prop :=
  t.trace = s.trace ∨ ∃ e, t.trace = s.trace ++ [e] ∧ ∀ p, e ≠ .underrun p

theorem EmitsNoUnderrun.of_event {e : Event} (htr : t.trace = s.trace ++ [e])
    (he : ∀ p, e ≠ .underrun p) : EmitsNoUnderrun s t := .inr ⟨e, htr, he⟩

theorem EmitsNoUnderrun.trace_ne (h : EmitsNoUnderrun s t) (p : Byte) :
    t.trace ≠ s.trace ++ [.underrun p] := by
  intro htr
  obtain hsame | ⟨e, hone, he⟩ := h
  · rw [hsame] at htr
    exact absurd htr.symm (by simp)
  · exact he p (List.singleton_inj.1 (List.append_cancel_left (hone.symm.trans htr)))

/-- From `s` to `t` the attached Player is notified, as the rate limit lets through (43_transmitter
R195, R196). -/
def Notifies (s t : State) : Prop :=
  t.trace = s.trace ++ [.underrun s.player] ∧ s.player ≠ 0 ∧ s.underrunDue = true ∧
    t.underrunLast = some s.now ∧ t.txState = TX_UNDERRUN_WAIT

/-- Only `TX.SWAP_UNDERRUN` notifies; any other effect keeps the time of the last notification, but
for the Transmitter's start. -/
theorem Effect.notifies_or (h : Effect i s t) :
    Notifies s t ∨ EmitsNoUnderrun s t ∧
      (t.underrunLast = s.underrunLast ∨ t.underrunLast = none ∧ t.txState = TX_PRELOAD) := by
  cases h
  case swapUnderrun =>
    obtain ⟨hp, hdue, h⟩ | ⟨-, h⟩ := s.underrunNotify_cases <;> rw [h]
    · exact .inl ⟨rfl, hp, hdue, rfl, rfl⟩
    · exact .inr ⟨.inl rfl, .inl rfl⟩
  case startTx => exact .inr ⟨.of_event rfl nofun, .inr ⟨rfl, rfl⟩⟩
  case byteStep => rw [byteEffect_eq]; exact .inr ⟨.inl rfl, .inl rfl⟩
  case underrunRetry => rw [retryNeed_eq]; exact .inr ⟨.inl rfl, .inl rfl⟩
  case drainEnd => rw [State.setCnt_eq]; exact .inr ⟨.inl rfl, .inl rfl⟩
  case pullDone => rw [State.setCnt_eq, State.setBuf_eq]; exact .inr ⟨.inl rfl, .inl rfl⟩
  case closeBoth tx _ rd => rw [closed_eq tx rd]; exact .inr ⟨.of_event rfl nofun, .inl rfl⟩
  case dispatchExt | throttlePass | pullIssue | deviceOpenFail | misuse | illegal | answered
    | closePart | attachRec | attachRecFull | detachRec | attachPlayer | detachPlayer =>
    exact .inr ⟨.of_event rfl nofun, .inl rfl⟩
  all_goals exact .inr ⟨.inl rfl, .inl rfl⟩

theorem Move.notifies_or (h : Move s t) :
    Notifies s t ∨ EmitsNoUnderrun s t ∧
      (t.underrunLast = s.underrunLast ∨ t.underrunLast = none ∧ t.txState = TX_PRELOAD) := by
  cases h with
  | effect heff => exact heff.notifies_or
  | _ => exact .inr ⟨.inl rfl, .inl rfl⟩

theorem step_notifies_or (h : step s = .next t) :
    Notifies s t ∨ EmitsNoUnderrun s t ∧
      (t.underrunLast = s.underrunLast ∨ t.underrunLast = none ∧ t.txState = TX_PRELOAD) := by
  obtain rfl | hmove := step_move h
  · exact .inr ⟨.inl rfl, .inl rfl⟩
  · exact hmove.notifies_or

/-- A notification that the rate limit lets through is the interval after the last one. -/
theorem le_now_of_underrunDue {last : Nat} (hdue : s.underrunDue = true)
    (hlast : s.underrunLast = some last) : last + s.params.underrunMinIntervalMs ≤ s.now := by
  have := State.underrunDue_iff.1 hdue last hlast
  omega

end Sys2Proof.Machine

namespace Sys2Proof.Proofs

open Sys2Proof.Machine

/-- Settles O50: the trace grows by the one event of a move, if any, and no effect clears `misuse`
or writes the parameters. -/
theorem whatNoStepUndoes : Obligations.WhatNoStepUndoes := by
  intro s t h
  have htrace : t.trace = s.trace ∨ ∃ e, t.trace = s.trace ++ [e] := by
    obtain hsame | ⟨e, hone, -⟩ := step_emitsWriteAtMark h
    · exact .inl hsame
    · exact .inr ⟨e, hone⟩
  refine ⟨htrace, ?_⟩
  obtain rfl | hmove := step_move h
  · exact ⟨id, rfl⟩
  · exact hmove.misuse_params

/-- Settles O48: a step notifies as `TX.SWAP_UNDERRUN` does, or emits no notification. -/
theorem notificationsAreApart : Obligations.NotificationsAreApart := by
  intro s t h
  obtain ⟨htr, hp, hdue, hlast, htx⟩ | ⟨hnone, hkept⟩ := step_notifies_or h
  · refine ⟨fun p hpt => ?_, fun hno => absurd htr (hno s.player)⟩
    have hplayer : [Event.underrun p] = [.underrun s.player] :=
      List.append_cancel_left (hpt.symm.trans htr)
    obtain rfl : p = s.player := Event.underrun.inj (List.singleton_inj.1 hplayer)
    exact ⟨rfl, hp, hlast, htx, fun last => le_now_of_underrunDue hdue⟩
  · exact ⟨fun p hpt => absurd hpt (hnone.trace_ne p), fun _ => hkept⟩

end Sys2Proof.Proofs
end

section
/-! PROOFS. Which instructions write which fields (10_state R22): one lemma per group of fields that
have the same owners, each by the effects of `Effect`. -/

namespace Sys2Proof.Machine

variable {s t : State} {i : Instr}

/-- The need is raised by three steps of the Transmitter, and cleared by the Producer and the
Transmitter's start (10_state R34). -/
theorem Effect.need_owner (h : Effect i s t) :
    t.need = s.need ∨ t.need = true ∧ i ∈ [Instr.txPreload, .txHalfNeed, .txUnderrunRetry] ∨
      t.need = false ∧ i ∈ [Instr.prPullNone, .prPullDone, .cuStartTx] := by
  cases h
  case preload | halfNeed => exact .inr (.inl ⟨rfl, by simp⟩)
  case underrunRetry =>
    split
    · exact .inr (.inl ⟨rfl, by simp⟩)
    · exact .inl rfl
  case pullNone | pullDone | startTx => exact .inr (.inr ⟨rfl, by simp⟩)
  case byteStep => rw [byteEffect_eq]; exact .inl rfl
  case swapUnderrun => rw [underrunNotify_eq]; exact .inl rfl
  case drainEnd => rw [State.setCnt_eq]; exact .inl rfl
  case closeBoth tx _ rd => rw [closed_eq tx rd]; exact .inl rfl
  all_goals exact .inl rfl

/-- The buffers are written by pulls and change their roles by swaps; the lock is the Producer's
(10_state R31, R32, R35). -/
theorem Effect.buffer_owners (h : Effect i s t) :
    (t.lock = s.lock ∨ i ∈ [Instr.prPullIssue, .prPullDone, .cuStartTx]) ∧
      (t.buf0 = s.buf0 ∧ t.buf1 = s.buf1 ∨ i = .prPullDone) ∧
      (t.wsel = s.wsel ∨ i ∈ [Instr.txSwapOk, .cuStartTx]) := by
  cases h
  case pullIssue => exact ⟨.inr (by simp), .inl ⟨rfl, rfl⟩, .inl rfl⟩
  case pullDone =>
    rw [State.setCnt_eq, State.setBuf_eq]
    exact ⟨.inr (by simp), .inr rfl, .inl rfl⟩
  case startTx => exact ⟨.inr (by simp), .inl ⟨rfl, rfl⟩, .inr (by simp)⟩
  case swapOk => exact ⟨.inl rfl, .inl ⟨rfl, rfl⟩, .inr (by simp)⟩
  case byteStep => rw [byteEffect_eq]; exact ⟨.inl rfl, .inl ⟨rfl, rfl⟩, .inl rfl⟩
  case swapUnderrun => rw [underrunNotify_eq]; exact ⟨.inl rfl, .inl ⟨rfl, rfl⟩, .inl rfl⟩
  case underrunRetry => rw [retryNeed_eq]; exact ⟨.inl rfl, .inl ⟨rfl, rfl⟩, .inl rfl⟩
  case drainEnd => rw [State.setCnt_eq]; exact ⟨.inl rfl, .inl ⟨rfl, rfl⟩, .inl rfl⟩
  case closeBoth tx _ rd => rw [closed_eq tx rd]; exact ⟨.inl rfl, .inl ⟨rfl, rfl⟩, .inl rfl⟩
  all_goals exact ⟨.inl rfl, .inl ⟨rfl, rfl⟩, .inl rfl⟩

/-- `fill` is written by the feedback listener and the Transmitter's start, `rd_buf` by a read
(10_state R26, R36). -/
theorem Effect.fill_rdBuf_owners (h : Effect i s t) :
    (t.fill = s.fill ∨ i ∈ [Instr.rdFeedback, .cuStartTx]) ∧
      (t.rdBuf = s.rdBuf ∨ i = .rdReadData) := by
  cases h
  case feedback | startTx => exact ⟨.inr (by simp), .inl rfl⟩
  case readData => exact ⟨.inl rfl, .inr rfl⟩
  case byteStep => rw [byteEffect_eq]; exact ⟨.inl rfl, .inl rfl⟩
  case swapUnderrun => rw [underrunNotify_eq]; exact ⟨.inl rfl, .inl rfl⟩
  case underrunRetry => rw [retryNeed_eq]; exact ⟨.inl rfl, .inl rfl⟩
  case drainEnd => rw [State.setCnt_eq]; exact ⟨.inl rfl, .inl rfl⟩
  case pullDone => rw [State.setCnt_eq, State.setBuf_eq]; exact ⟨.inl rfl, .inl rfl⟩
  case closeBoth tx _ rd => rw [closed_eq tx rd]; exact ⟨.inl rfl, .inl rfl⟩
  all_goals exact ⟨.inl rfl, .inl rfl⟩

/-- The control unit's own fields (10_state R29, R42, R45 to R47). -/
theorem Effect.session_owner (h : Effect i s t) (hi : instrAgent i ≠ some .cu) :
    t.recReg = s.recReg ∧ t.player = s.player ∧ t.ssState = s.ssState ∧ t.misuse = s.misuse ∧
      t.cuBusy = s.cuBusy := by
  cases h
  case misuse command | illegal command | answered command _ =>
    exact absurd (instrAgent_of_ctlCmd command) hi
  case deviceOpenOk | deviceOpenFail | startRd | startTx | openSession | closePart | closeBoth
    | attachRec | attachRecFull | detachRec | attachPlayer | detachPlayer => exact absurd rfl hi
  case byteStep => rw [byteEffect_eq]; exact ⟨rfl, rfl, rfl, rfl, rfl⟩
  case swapUnderrun => rw [underrunNotify_eq]; exact ⟨rfl, rfl, rfl, rfl, rfl⟩
  case underrunRetry => rw [retryNeed_eq]; exact ⟨rfl, rfl, rfl, rfl, rfl⟩
  case drainEnd => rw [State.setCnt_eq]; exact ⟨rfl, rfl, rfl, rfl, rfl⟩
  case pullDone => rw [State.setCnt_eq, State.setBuf_eq]; exact ⟨rfl, rfl, rfl, rfl, rfl⟩
  all_goals exact ⟨rfl, rfl, rfl, rfl, rfl⟩

/-- The Reader's fields, which the control unit writes at its start and its close (10_state R23,
R25, R26, R30). -/
theorem Effect.reader_owner (h : Effect i s t) (hrd : instrAgent i ≠ some .rd)
    (hcu : instrAgent i ≠ some .cu) :
    t.rdState = s.rdState ∧ t.syncState = s.syncState ∧ t.rdPos = s.rdPos ∧
      t.dispList = s.dispList := by
  cases h
  case byteStep row => exact absurd (instrAgent_of_row row) hrd
  case readData | readEmpty | readFail | bufDone | dispatchExt | feedback | dispatchEnd
    | sleepDone => exact absurd rfl hrd
  case deviceOpenOk | deviceOpenFail | startRd | startTx | openSession | closePart | closeBoth
    | attachRec | attachRecFull | detachRec | attachPlayer | detachPlayer => exact absurd rfl hcu
  case swapUnderrun => rw [underrunNotify_eq]; exact ⟨rfl, rfl, rfl, rfl⟩
  case underrunRetry => rw [retryNeed_eq]; exact ⟨rfl, rfl, rfl, rfl⟩
  case drainEnd => rw [State.setCnt_eq]; exact ⟨rfl, rfl, rfl, rfl⟩
  case pullDone => rw [State.setCnt_eq, State.setBuf_eq]; exact ⟨rfl, rfl, rfl, rfl⟩
  all_goals exact ⟨rfl, rfl, rfl, rfl⟩

/-- The main loop's state and its write in flight (10_state R37, R39). -/
theorem Effect.mainLoop_owner (h : Effect i s t) (htx : instrAgent i ≠ some .tx)
    (hcu : instrAgent i ≠ some .cu) : t.txState = s.txState ∧ t.txOut = s.txOut := by
  cases h
  case preload | swapOk | swapUnderrun | underrunRetry | drainEnd | halfPoint | nextFrame | halfNeed
    | throttlePass | throttleHold | throttleRecheck | writeOk | writeFail => exact absurd rfl htx
  case deviceOpenOk | deviceOpenFail | startRd | startTx | openSession | closePart | closeBoth
    | attachRec | attachRecFull | detachRec | attachPlayer | detachPlayer => exact absurd rfl hcu
  case byteStep => rw [byteEffect_eq]; exact ⟨rfl, rfl⟩
  case pullDone => rw [State.setCnt_eq, State.setBuf_eq]; exact ⟨rfl, rfl⟩
  all_goals exact ⟨rfl, rfl⟩

/-- The Producer's state (10_state R43). -/
theorem Effect.producer_owner (h : Effect i s t) (hpr : instrAgent i ≠ some .pr)
    (hcu : instrAgent i ≠ some .cu) : t.prState = s.prState := by
  cases h
  case pullIssue | pullNone | pullDone => exact absurd rfl hpr
  case deviceOpenOk | deviceOpenFail | startRd | startTx | openSession | closePart | closeBoth
    | attachRec | attachRecFull | detachRec | attachPlayer | detachPlayer => exact absurd rfl hcu
  case byteStep => rw [byteEffect_eq]
  case swapUnderrun => rw [underrunNotify_eq]
  case underrunRetry => rw [retryNeed_eq]; rfl
  case drainEnd => rw [State.setCnt_eq]
  all_goals rfl

end Sys2Proof.Machine

namespace Sys2Proof.Proofs

open Sys2Proof.Machine

/-- Settles O49: a held step changes no field, and an effect those its instruction owns. -/
theorem fieldsHaveTheirOwners : Obligations.FieldsHaveTheirOwners := by
  intro i s t hexec
  obtain rfl | h := exec_cases hexec
  · simp
  obtain ⟨hlock, hbuf, hwsel⟩ := h.buffer_owners
  obtain ⟨hfill, hrdBuf⟩ := h.fill_rdBuf_owners
  refine ⟨h.need_owner.resolve_left, hlock.resolve_left, hfill.resolve_left, fun hne => ?_,
    fun hne => ?_, hwsel.resolve_left, fun hne => ?_, hrdBuf.resolve_left, fun hne => ?_,
    fun hne => ?_⟩
  · by_contra hcu
    obtain ⟨h1, h2, h3, h4, h5⟩ := h.session_owner hcu
    simp [h1, h2, h3, h4, h5] at hne
  · refine hbuf.resolve_left fun hsame => ?_
    simp [hsame] at hne
  · by_contra hno
    obtain ⟨hrd, hcu⟩ := not_or.1 hno
    obtain ⟨h1, h2, h3, h4⟩ := h.reader_owner hrd hcu
    simp [h1, h2, h3, h4] at hne
  · by_contra hno
    obtain ⟨htx, hcu⟩ := not_or.1 hno
    obtain ⟨h1, h2⟩ := h.mainLoop_owner htx hcu
    simp [h1, h2] at hne
  · by_contra hno
    obtain ⟨hpr, hcu⟩ := not_or.1 hno
    exact hne (h.producer_owner hpr hcu)

end Sys2Proof.Proofs
end

section
/-! PROOFS. What every step keeps of the single parts of the state: legal codes, stores in range,
the bounded registry, failure values and working bytes (10_state R21 to R31, R40; 42_synchronizer
R156), and of the events emitted (60_exceptions R294). -/

namespace Sys2Proof.Machine

variable {s t : State} {i : Instr}

/-! ### Legal codes -/

/-- The state after a payload byte is listed: only `P5_READ` has none behind it. -/
theorem succ_le_P5_READ {c : BitVec 3} (h : c ≤ P5_READ) (h6 : c ≠ P5_READ) : c + 1 ≤ P5_READ := by
  revert c; decide

/-- A byte step leaves both of the Reader's control points at legal codes. -/
theorem byteEffect_codes (hsync : s.syncState ≤ P5_READ) (hrd : s.rdState ≤ RD_FAILED) :
    s.byteEffect.syncState ≤ P5_READ ∧ s.byteEffect.rdState ≤ RD_FAILED := by
  obtain ⟨-, -, h⟩ | ⟨-, -, h⟩ | ⟨-, -, h⟩ | ⟨-, -, h6, h⟩ | ⟨-, -, h⟩ := byteEffect_cases s <;>
    rw [h]
  · exact ⟨of_decide_eq_true rfl, hrd⟩
  · exact ⟨of_decide_eq_true rfl, hrd⟩
  · exact ⟨of_decide_eq_true rfl, hrd⟩
  · exact ⟨succ_le_P5_READ hsync h6, hrd⟩
  · exact ⟨of_decide_eq_true rfl, of_decide_eq_true rfl⟩

theorem Effect.codesLegal (h : Effect i s t) (hs : s.codesLegal) : t.codesLegal := by
  obtain ⟨hsync, hrd, htx, hpr, hss⟩ := hs
  cases h
  case byteStep =>
    obtain ⟨hsync', hrd'⟩ := byteEffect_codes hsync hrd
    rw [byteEffect_eq]
    exact ⟨hsync', hrd', htx, hpr, hss⟩
  case readData | readEmpty | readFail | bufDone | dispatchEnd | sleepDone =>
    exact ⟨hsync, of_decide_eq_true rfl, htx, hpr, hss⟩
  case preload | swapOk | halfPoint | nextFrame | halfNeed | throttlePass | throttleHold
    | throttleRecheck | writeOk | writeFail =>
    exact ⟨hsync, hrd, of_decide_eq_true rfl, hpr, hss⟩
  case swapUnderrun =>
    rw [underrunNotify_eq]
    exact ⟨hsync, hrd, of_decide_eq_true rfl, hpr, hss⟩
  case underrunRetry =>
    rw [retryNeed_eq]
    exact ⟨hsync, hrd, of_decide_eq_true rfl, hpr, hss⟩
  case drainEnd =>
    rw [State.setCnt_eq]
    exact ⟨hsync, hrd, of_decide_eq_true rfl, hpr, hss⟩
  case pullIssue => exact ⟨hsync, hrd, htx, of_decide_eq_true rfl, hss⟩
  case pullDone =>
    rw [State.setCnt_eq, State.setBuf_eq]
    exact ⟨hsync, hrd, htx, of_decide_eq_true rfl, hss⟩
  case deviceOpenOk | deviceOpenFail | openSession =>
    exact ⟨hsync, hrd, htx, hpr, of_decide_eq_true rfl⟩
  case startRd =>
    exact ⟨of_decide_eq_true rfl, of_decide_eq_true rfl, htx, hpr, of_decide_eq_true rfl⟩
  case startTx =>
    exact ⟨hsync, hrd, of_decide_eq_true rfl, of_decide_eq_true rfl, of_decide_eq_true rfl⟩
  case closePart => exact ⟨hsync, hrd, of_decide_eq_true rfl, of_decide_eq_true rfl, hss⟩
  case closeBoth tx _ rd =>
    rw [closed_eq tx rd]
    refine ⟨hsync, of_decide_eq_true rfl, of_decide_eq_true rfl, ?_, of_decide_eq_true rfl⟩
    obtain ⟨-, rfl⟩ | ⟨-, -, -, rfl⟩ := tx
    · exact hpr
    · exact of_decide_eq_true rfl
  all_goals exact ⟨hsync, hrd, htx, hpr, hss⟩

theorem Move.codesLegal (h : Move s t) (hs : s.codesLegal) : t.codesLegal := by
  cases h with
  | effect heff => exact heff.codesLegal hs
  | _ => exact hs

/-! ### Stores in range -/

theorem Memory.below_cons {α : Type} {bound k : Nat} {v : α} {m : Memory α} :
    Memory.below bound ((k, v) :: m) = true ↔ k < bound ∧ Memory.below bound m = true := by
  rw [Memory.below, List.all_cons, Bool.and_eq_true, decide_eq_true_eq]
  rfl

/-- A write inside the bound keeps a store below it. -/
theorem Memory.below_write {α : Type} [DecidableEq α] {d : α} {bound : Nat} {m : Memory α}
    (h : Memory.below bound m = true) {a : Nat} (ha : a < bound) (v : α) :
    Memory.below bound (Memory.write d m a v) = true := by
  induction m with
  | nil =>
    rw [Memory.write]
    split
    · rfl
    · exact Memory.below_cons.2 ⟨ha, rfl⟩
  | cons entry m ih =>
    obtain ⟨k, w⟩ := entry
    obtain ⟨hk, hm⟩ := Memory.below_cons.1 h
    rw [Memory.write]
    split_ifs
    · exact h
    · exact Memory.below_cons.2 ⟨ha, h⟩
    · exact hm
    · exact Memory.below_cons.2 ⟨ha, hm⟩
    · exact Memory.below_cons.2 ⟨hk, ih hm⟩

theorem Memory.below_writeFrom {α : Type} [DecidableEq α] {d : α} {bound : Nat} {m : Memory α}
    (h : Memory.below bound m = true) {a : Nat} {vs : List α}
    (ha : vs = [] ∨ a + vs.length ≤ bound) :
    Memory.below bound (Memory.writeFrom d m a vs) = true := by
  induction vs generalizing m a with
  | nil => exact h
  | cons v vs ih =>
    have hlen : a + (vs.length + 1) ≤ bound := ha.resolve_left (List.cons_ne_nil v vs)
    exact ih (Memory.below_write h (by omega) v) (.inr (by omega))

/-- A transmit buffer is canonical and within its capacity. -/
def bufferOk (bound : Nat) (m : Memory Frame) : Prop :=
  Memory.wf Config.unwrittenFrame m = true ∧ Memory.below bound m = true

theorem bufferOk_writeFrom {bound a : Nat} {m : Memory Frame} {frames : List Frame}
    (h : bufferOk bound m) (ha : frames = [] ∨ a + frames.length ≤ bound) :
    bufferOk bound (Memory.writeFrom Config.unwrittenFrame m a frames) :=
  ⟨Memory.wf_writeFrom h.1 a frames, Memory.below_writeFrom h.2 ha⟩

theorem bufferOk_ite {bound : Nat} {m n : Memory Frame} (b : Bool) (hm : bufferOk bound m)
    (hn : bufferOk bound n) : bufferOk bound (if b then m else n) := by
  split
  exacts [hm, hn]

/-- Where an entry is found, the index is inside the list. -/
theorem succ_le_of_getElem? {α : Type} {l : List α} {n : Nat} {x : α} (h : l[n]? = some x) :
    n + 1 ≤ l.length := by
  obtain ⟨hn, -⟩ := List.getElem?_eq_some_iff.1 h
  exact hn

/-- A byte step keeps the dispatch's position, or starts at the first entry. -/
theorem byteEffect_dispIdx (h : s.dispIdx ≤ s.dispList.length) :
    s.byteEffect.dispIdx ≤ s.byteEffect.dispList.length := by
  obtain ⟨-, -, h'⟩ | ⟨-, -, h'⟩ | ⟨-, -, h'⟩ | ⟨-, -, -, h'⟩ | ⟨-, -, h'⟩ :=
    byteEffect_cases s <;> rw [h']
  case inr.inr.inr.inr => exact Nat.zero_le _
  all_goals exact h

theorem Effect.storesOk (h : Effect i s t) (hs : s.storesOk) : t.storesOk := by
  obtain ⟨hrdBuf, hwf0, hwf1, hrdBelow, hbelow0, hbelow1, hpos, hlen, hidx⟩ := hs
  cases h
  case byteStep more _ =>
    rw [byteEffect_eq]
    exact ⟨hrdBuf, hwf0, hwf1, hrdBelow, hbelow0, hbelow1, more, hlen, byteEffect_dispIdx hidx⟩
  case readData fits =>
    exact ⟨Memory.wf_writeFrom hrdBuf 0 _, hwf0, hwf1,
      Memory.below_writeFrom hrdBelow (.inr (by rwa [Nat.zero_add])), hbelow0, hbelow1,
      Nat.zero_le _, fits, hidx⟩
  case dispatchExt entry _ | feedback entry =>
    exact ⟨hrdBuf, hwf0, hwf1, hrdBelow, hbelow0, hbelow1, hpos, hlen, succ_le_of_getElem? entry⟩
  case pullDone fits =>
    rw [State.setCnt_eq, State.setBuf_eq]
    have hclient : bufferOk s.params.txBufFrames (s.buf s.client) :=
      bufferOk_ite s.client ⟨hwf1, hbelow1⟩ ⟨hwf0, hbelow0⟩
    obtain ⟨hwf0', hbelow0'⟩ :=
      bufferOk_ite s.client ⟨hwf0, hbelow0⟩ (bufferOk_writeFrom hclient fits)
    obtain ⟨hwf1', hbelow1'⟩ :=
      bufferOk_ite s.client (bufferOk_writeFrom hclient fits) ⟨hwf1, hbelow1⟩
    exact ⟨hrdBuf, hwf0', hwf1', hrdBelow, hbelow0', hbelow1', hpos, hlen, hidx⟩
  case startRd =>
    refine ⟨hrdBuf, hwf0, hwf1, hrdBelow, hbelow0, hbelow1, Nat.zero_le _, Nat.zero_le _, ?_⟩
    cases hkeep : s.params.startKeepsDispatch <;> simp [hkeep, hidx]
  case swapUnderrun =>
    rw [underrunNotify_eq]
    exact ⟨hrdBuf, hwf0, hwf1, hrdBelow, hbelow0, hbelow1, hpos, hlen, hidx⟩
  case underrunRetry =>
    rw [retryNeed_eq]
    exact ⟨hrdBuf, hwf0, hwf1, hrdBelow, hbelow0, hbelow1, hpos, hlen, hidx⟩
  case drainEnd =>
    rw [State.setCnt_eq]
    exact ⟨hrdBuf, hwf0, hwf1, hrdBelow, hbelow0, hbelow1, hpos, hlen, hidx⟩
  case closeBoth tx _ rd =>
    rw [closed_eq tx rd]
    exact ⟨hrdBuf, hwf0, hwf1, hrdBelow, hbelow0, hbelow1, hpos, hlen, hidx⟩
  all_goals exact ⟨hrdBuf, hwf0, hwf1, hrdBelow, hbelow0, hbelow1, hpos, hlen, hidx⟩

theorem Move.storesOk (h : Move s t) (hs : s.storesOk) : t.storesOk := by
  cases h with
  | effect heff => exact heff.storesOk hs
  | _ => exact hs

/-! ### The registry -/

theorem recorderList_nil (max : Nat) : recorderList max [] := ⟨List.nodup_nil, Nat.zero_le _⟩

theorem recorderList_filter {max : Nat} {ids : List Byte} (h : recorderList max ids)
    (p : Byte → Bool) : recorderList max (ids.filter p) := by
  obtain ⟨hnodup, hlen⟩ := h
  exact ⟨hnodup.filter p,
    ((List.filter_sublist (p := p)).filter _).length_le.trans hlen⟩

theorem nodup_append_singleton {ids : List Byte} {id : Byte} (h : ids.Nodup) (hnew : id ∉ ids) :
    (ids ++ [id]).Nodup := by
  rw [List.nodup_append]
  exact ⟨h, List.nodup_singleton id, fun a ha b hb => by
    rw [List.mem_singleton.1 hb]; exact fun hab => hnew (hab ▸ ha)⟩

/-- An external Recorder not yet in the list fits where the list is not full. -/
theorem recorderList_append_ext {max : Nat} {ids : List Byte} {id : Byte} (h : recorderList max ids)
    (hnew : id ∉ ids) (hroom : (ids.filter (· ≠ LISTENER)).length ≠ max) :
    recorderList max (ids ++ [id]) := by
  obtain ⟨hnodup, hlen⟩ := h
  refine ⟨nodup_append_singleton hnodup hnew, ?_⟩
  have hone : ([id].filter (· ≠ LISTENER)).length ≤ 1 := List.length_filter_le _ [id]
  rw [List.filter_append, List.length_append]
  omega

/-- The listener is no external Recorder. -/
theorem recorderList_append_listener {max : Nat} {ids : List Byte} (h : recorderList max ids)
    (hnew : LISTENER ∉ ids) : recorderList max (ids ++ [LISTENER]) := by
  obtain ⟨hnodup, hlen⟩ := h
  refine ⟨nodup_append_singleton hnodup hnew, ?_⟩
  rw [List.filter_append, List.length_append]
  exact hlen

/-- The snapshot a byte step takes is the registry. -/
theorem byteEffect_dispList (s : State) :
    s.byteEffect.dispList = s.dispList ∨ s.byteEffect.dispList = s.recReg := by
  obtain ⟨-, -, h⟩ | ⟨-, -, h⟩ | ⟨-, -, h⟩ | ⟨-, -, -, h⟩ | ⟨-, -, h⟩ := byteEffect_cases s <;>
    rw [h]
  case inr.inr.inr.inr => exact .inr rfl
  all_goals exact .inl rfl

theorem Effect.registryOk (h : Effect i s t) (hs : s.registryOk) : t.registryOk := by
  obtain ⟨hreg, hdisp⟩ := hs
  cases h
  case byteStep =>
    have hdisp' : recorderList s.params.maxRecorders s.byteEffect.dispList := by
      obtain h | h := byteEffect_dispList s <;> rw [h]
      exacts [hdisp, hreg]
    rw [byteEffect_eq]
    exact ⟨hreg, hdisp'⟩
  case startRd =>
    refine ⟨hreg, ?_⟩
    show recorderList _ (if s.params.startKeepsDispatch then s.dispList else [])
    split
    exacts [hdisp, recorderList_nil _]
  case startTx =>
    refine ⟨?_, hdisp⟩
    show recorderList _ (if LISTENER ∈ s.recReg then s.recReg else s.recReg ++ [LISTENER])
    split
    exacts [hreg, recorderList_append_listener hreg ‹_›]
  case attachRec _ _ new room => exact ⟨recorderList_append_ext hreg new room, hdisp⟩
  case detachRec | closePart => exact ⟨recorderList_filter hreg _, hdisp⟩
  case closeBoth tx _ rd =>
    rw [closed_eq tx rd]
    refine ⟨?_, hdisp⟩
    obtain ⟨-, rfl⟩ | ⟨-, -, -, rfl⟩ := tx
    exacts [hreg, recorderList_filter hreg _]
  case swapUnderrun => rw [underrunNotify_eq]; exact ⟨hreg, hdisp⟩
  case underrunRetry => rw [retryNeed_eq]; exact ⟨hreg, hdisp⟩
  case drainEnd => rw [State.setCnt_eq]; exact ⟨hreg, hdisp⟩
  case pullDone => rw [State.setCnt_eq, State.setBuf_eq]; exact ⟨hreg, hdisp⟩
  all_goals exact ⟨hreg, hdisp⟩

theorem Move.registryOk (h : Move s t) (hs : s.registryOk) : t.registryOk := by
  cases h with
  | effect heff => exact heff.registryOk hs
  | _ => exact hs

end Sys2Proof.Machine

namespace Sys2Proof.Proofs

open Sys2Proof.Machine

/-- Settles O53: the codes written are those of 10_state's tables. -/
theorem stateCodesStayLegal : Obligations.StateCodesStayLegal :=
  fun _ _ hs h => step_keeps (P := State.codesLegal) id Move.codesLegal hs h

/-- Settles O54: writes stay inside the capacity, and the positions move only below their ends. -/
theorem storesStayInRange : Obligations.StoresStayInRange :=
  fun _ _ hs h => step_keeps (P := State.storesOk) id Move.storesOk hs h

/-- Settles O55: an id is appended where it is new, and an external one where there is room. -/
theorem theRegistryStaysBounded : Obligations.TheRegistryStaysBounded :=
  fun _ _ hs h => step_keeps (P := State.registryOk) id Move.registryOk hs h

end Sys2Proof.Proofs
end

section
/-! PROOFS. Failure values and working bytes (10_state R24, R28, R40), and the events emitted
(60_exceptions R294): what every step keeps of them. -/

namespace Sys2Proof.Machine

variable {s t : State} {i : Instr}

/-! ### Failure values -/

/-- A loop's failure value is valid while the loop is failed, not valid while it runs, and 0 where
it is not valid (10_state R28, R40). -/
def failureOk (failed running : Prop) (valid : Bool) (code : Byte) : Prop :=
  (failed → valid = true) ∧ (running → valid = false) ∧ (valid = false → code = 0)

theorem failuresOk_iff (s : State) :
    s.failuresOk ↔
      failureOk (s.rdState = RD_FAILED) (s.rdRunning = true) s.rdFailValid s.rdFailCode ∧
        failureOk (s.txState = TX_FAILED) (s.txRunning = true) s.txFailValid s.txFailCode := by
  simp only [State.failuresOk, failureOk, and_assoc]

section
variable {failed running failed' running' : Prop} {valid : Bool} {code : Byte}

/-- A loop that runs goes on, or is no loop any more, with the value it has. -/
theorem failureOk.move (h : failureOk failed running valid code) (hrun : running)
    (hnot : ¬failed') : failureOk failed' running' valid code := by
  obtain ⟨-, hvalid, hcode⟩ := h
  exact ⟨fun hf => absurd hf hnot, fun _ => hvalid hrun, hcode⟩

/-- A loop that is closed keeps its value. -/
theorem failureOk.close (h : failureOk failed running valid code) (hnot : ¬failed')
    (hstop : ¬running') : failureOk failed' running' valid code := by
  obtain ⟨-, -, hcode⟩ := h
  exact ⟨fun hf => absurd hf hnot, fun hr => absurd hr hstop, hcode⟩

theorem failureOk_fail (hstop : ¬running) : failureOk failed running true code :=
  ⟨fun _ => rfl, fun hr => absurd hr hstop, nofun⟩

theorem failureOk_start (hnot : ¬failed) : failureOk failed running false 0 :=
  ⟨fun hf => absurd hf hnot, fun _ => rfl, fun _ => rfl⟩

end

theorem txRunning_of_code {c : BitVec 4} (h : s.txState = c)
    (hc : TX_PRELOAD ≤ c ∧ c ≤ TX_WRITE_WAIT) : s.txRunning = true :=
  State.txRunning_iff.2 (h ▸ hc)

theorem rdRunning_of_code {c : BitVec 3} (h : s.rdState = c)
    (hc : c = RD_READ ∨ c = RD_PROCESS ∨ c = RD_DISPATCH ∨ c = RD_SLEEP) : s.rdRunning = true :=
  State.rdRunning_iff.2 (h ▸ hc)

/-- A byte step stays in `RD_PROCESS` or starts the dispatch. -/
theorem byteEffect_rdState (s : State) :
    s.byteEffect.rdState = s.rdState ∨
      s.byteEffect.rdState = RD_DISPATCH ∧ s.byteEffect.syncState = UNSYNC := by
  obtain ⟨-, -, h⟩ | ⟨-, -, h⟩ | ⟨-, -, h⟩ | ⟨-, -, -, h⟩ | ⟨-, -, h⟩ := byteEffect_cases s <;>
    rw [h]
  case inr.inr.inr.inr => exact .inr ⟨rfl, rfl⟩
  all_goals exact .inl rfl

theorem Effect.failuresOk (h : Effect i s t) (hs : s.failuresOk) : t.failuresOk := by
  obtain ⟨hrd, htx⟩ := (failuresOk_iff s).1 hs
  rw [failuresOk_iff]
  cases h
  case byteStep at_ _ _ =>
    have hnot : ¬s.byteEffect.rdState = RD_FAILED := by
      obtain h | ⟨h, -⟩ := byteEffect_rdState s <;> rw [h]
      · rw [at_]; decide
      · decide
    refine ⟨?_, ?_⟩
    · rw [byteEffect_eq] at hnot ⊢
      exact hrd.move (rdRunning_of_code at_ (by decide)) hnot
    · rw [byteEffect_eq]
      exact htx
  case readData | readEmpty | bufDone | dispatchEnd | sleepDone =>
    exact ⟨hrd.move (rdRunning_of_code ‹s.rdState = _› (by decide)) (of_decide_eq_false rfl), htx⟩
  case readFail => exact ⟨failureOk_fail (of_decide_eq_false rfl), htx⟩
  case preload | swapOk | halfPoint | nextFrame | halfNeed | throttlePass | throttleHold
    | throttleRecheck | writeOk =>
    exact ⟨hrd, htx.move (txRunning_of_code ‹s.txState = _› (by decide)) (of_decide_eq_false rfl)⟩
  case swapUnderrun at_ _ _ _ =>
    rw [underrunNotify_eq]
    exact ⟨hrd, htx.move (txRunning_of_code ‹s.txState = _› (by decide)) (of_decide_eq_false rfl)⟩
  case underrunRetry at_ _ _ =>
    rw [retryNeed_eq]
    exact ⟨hrd, htx.move (txRunning_of_code ‹s.txState = _› (by decide)) (of_decide_eq_false rfl)⟩
  case drainEnd at_ _ =>
    rw [State.setCnt_eq]
    exact ⟨hrd, htx.move (txRunning_of_code ‹s.txState = _› (by decide)) (of_decide_eq_false rfl)⟩
  case writeFail => exact ⟨hrd, failureOk_fail (of_decide_eq_false rfl)⟩
  case startRd => exact ⟨failureOk_start (of_decide_eq_false rfl), htx⟩
  case startTx => exact ⟨hrd, failureOk_start (of_decide_eq_false rfl)⟩
  case closePart => exact ⟨hrd, htx.close (of_decide_eq_false rfl) (of_decide_eq_false rfl)⟩
  case closeBoth tx _ rd =>
    rw [closed_eq tx rd]
    exact ⟨hrd.close (of_decide_eq_false rfl) (of_decide_eq_false rfl),
      htx.close (of_decide_eq_false rfl) (of_decide_eq_false rfl)⟩
  case pullDone => rw [State.setCnt_eq, State.setBuf_eq]; exact ⟨hrd, htx⟩
  all_goals exact ⟨hrd, htx⟩

theorem Move.failuresOk (h : Move s t) (hs : s.failuresOk) : t.failuresOk := by
  cases h with
  | effect heff => exact heff.failuresOk hs
  | _ => exact hs

/-! ### Working bytes -/

/-- The working bytes taken so far, in state `c`, keep the bit-7 rules (10_state R24). -/
def workOk (c : BitVec 3) (w : SyncWork) : Prop :=
  (1 ≤ c → w.b0.msb = true) ∧ (2 ≤ c → w.b1.msb = false) ∧ (3 ≤ c → w.b2.msb = false) ∧
    (4 ≤ c → w.b3.msb = false) ∧ (5 ≤ c → w.b4.msb = false) ∧ (6 ≤ c → w.b5.msb = false)

theorem syncOk_iff (s : State) :
    s.syncOk ↔ (s.rdState = RD_DISPATCH → s.syncState = UNSYNC) ∧ workOk s.syncState s.syncWork :=
  Iff.rfl

theorem workOk_unsync (w : SyncWork) : workOk UNSYNC w := by
  refine ⟨?_, ?_, ?_, ?_, ?_, ?_⟩ <;> exact fun h => absurd h (by decide)

theorem workOk_status {x : Byte} (w : SyncWork) (hx : x.msb = true) :
    workOk STATUS_READ (w.put 0 x) := by
  refine ⟨fun _ => hx, ?_, ?_, ?_, ?_, ?_⟩ <;> exact fun h => absurd h (by decide)

/-- The five states in which a payload byte is stored. -/
theorem payload_state_cases {c : BitVec 3} (h0 : c ≠ UNSYNC) (h6 : c ≠ P5_READ) (h : c ≤ P5_READ) :
    c = STATUS_READ ∨ c = P1_READ ∨ c = P2_READ ∨ c = P3_READ ∨ c = P4_READ := by
  revert c; decide

theorem workOk_payload {c : BitVec 3} {w : SyncWork} {x : Byte} (hw : workOk c w)
    (h0 : c ≠ UNSYNC) (h6 : c ≠ P5_READ) (hc : c ≤ P5_READ) (hx : x.msb = false) :
    workOk (c + 1) (w.put c.toNat x) := by
  obtain rfl | rfl | rfl | rfl | rfl := payload_state_cases h0 h6 hc <;>
    simp_all [workOk, SyncWork.put, STATUS_READ, P1_READ, P2_READ, P3_READ, P4_READ]

theorem byteEffect_workOk (hlegal : s.reservedCode .rd = false)
    (hw : workOk s.syncState s.syncWork) :
    workOk s.byteEffect.syncState s.byteEffect.syncWork := by
  obtain ⟨hx, -, h⟩ | ⟨-, -, h⟩ | ⟨-, -, h⟩ | ⟨hx, h0, h6, h⟩ | ⟨-, -, h⟩ := byteEffect_cases s <;>
    rw [h]
  · exact workOk_status _ hx
  · exact workOk_unsync _
  · exact workOk_unsync _
  · refine workOk_payload hw h0 h6 ?_ hx
    simp only [State.reservedCode, Bool.or_eq_false_iff, decide_eq_false_iff_not] at hlegal
    exact BitVec.not_lt.1 hlegal.2
  · exact workOk_unsync _

theorem Effect.syncOk (h : Effect i s t) (hs : s.syncOk) : t.syncOk := by
  obtain ⟨hdisp, hwork⟩ := (syncOk_iff s).1 hs
  rw [syncOk_iff]
  cases h
  case byteStep legal at_ _ _ =>
    have hdisp' : s.byteEffect.rdState = RD_DISPATCH → s.byteEffect.syncState = UNSYNC := by
      obtain h | ⟨-, h⟩ := byteEffect_rdState s
      · rw [h, at_]; exact fun h => absurd h (by decide)
      · exact fun _ => h
    exact ⟨hdisp', byteEffect_workOk legal hwork⟩
  case readData | readEmpty | readFail | bufDone | dispatchEnd | sleepDone =>
    exact ⟨fun h => absurd h (of_decide_eq_false rfl), hwork⟩
  case startRd => exact ⟨fun _ => rfl, workOk_unsync _⟩
  case closeBoth tx _ rd =>
    rw [closed_eq tx rd]
    exact ⟨fun h => absurd h (of_decide_eq_false rfl), hwork⟩
  case swapUnderrun => rw [underrunNotify_eq]; exact ⟨hdisp, hwork⟩
  case underrunRetry => rw [retryNeed_eq]; exact ⟨hdisp, hwork⟩
  case drainEnd => rw [State.setCnt_eq]; exact ⟨hdisp, hwork⟩
  case pullDone => rw [State.setCnt_eq, State.setBuf_eq]; exact ⟨hdisp, hwork⟩
  all_goals exact ⟨hdisp, hwork⟩

theorem Move.syncOk (h : Move s t) (hs : s.syncOk) : t.syncOk := by
  cases h with
  | effect heff => exact heff.syncOk hs
  | _ => exact hs

/-! ### Events -/

/-- The wire frame of a write is one ENCODE gives (41_codec R133). -/
theorem eventOk_txWrite (p : Params) (f : Frame) : eventOk p (.txWrite (encodeFrame f)) = true := by
  rw [eventOk, Laws.encodeFrame_eq_wireOfBits, Laws.wireOfBits_markersOk, Laws.wireOfBits_p5]
  rfl

theorem eventOk_respOk (p : Params) (value : BitVec 32) : eventOk p (.resp RESP_OK value) = true :=
  rfl

/-- Every effect emits at most one event, which is one the engine may emit. -/
theorem Effect.event_ok (h : Effect i s t) :
    t.trace = s.trace ∨ ∃ e, t.trace = s.trace ++ [e] ∧ eventOk s.params e = true := by
  cases h
  case dispatchExt ext _ _ _ => exact .inr ⟨_, rfl, decide_eq_true ext⟩
  case throttlePass => exact .inr ⟨_, rfl, eventOk_txWrite _ _⟩
  case pullIssue attached =>
    refine .inr ⟨_, rfl, ?_⟩
    rw [eventOk, decide_eq_true attached, decide_eq_true (Nat.sub_le _ _)]
    rfl
  case swapUnderrun =>
    obtain ⟨hp, -, h⟩ | ⟨-, h⟩ := s.underrunNotify_cases <;> rw [h]
    · exact .inr ⟨_, rfl, decide_eq_true hp⟩
    · exact .inl rfl
  case answered => exact .inr ⟨_, rfl, eventOk_respOk _ _⟩
  case closeBoth tx _ rd => rw [closed_eq tx rd]; exact .inr ⟨_, rfl, rfl⟩
  case deviceOpenFail | startTx | misuse | illegal | closePart | attachRec | attachRecFull
    | detachRec | attachPlayer | detachPlayer => exact .inr ⟨_, rfl, rfl⟩
  case byteStep => exact .inl (byteEffect_trace s)
  case underrunRetry => rw [retryNeed_eq]; exact .inl rfl
  case drainEnd => rw [State.setCnt_eq]; exact .inl rfl
  case pullDone => rw [State.setCnt_eq, State.setBuf_eq]; exact .inl rfl
  all_goals exact .inl rfl

/-- Only `TX.THROTTLE_PASS` makes the main loop wait for a write, and it writes `tx_out`. -/
theorem Effect.write_ok (h : Effect i s t) (hwait : t.txState = TX_WRITE_WAIT) :
    s.txState = TX_WRITE_WAIT ∧ t.txOut = s.txOut ∨ eventOk s.params (.txWrite t.txOut) = true := by
  cases h
  case throttlePass => exact .inr (eventOk_txWrite _ _)
  case preload | swapOk | swapUnderrun | underrunRetry | drainEnd | halfPoint | nextFrame | halfNeed
    | throttleHold | throttleRecheck | writeOk | writeFail | startTx | closePart =>
    exact absurd hwait (of_decide_eq_false rfl)
  case closeBoth tx _ rd =>
    rw [closed_eq tx rd] at hwait
    exact absurd hwait (of_decide_eq_false rfl)
  case byteStep => rw [byteEffect_eq] at hwait ⊢; exact .inl ⟨hwait, rfl⟩
  case pullDone =>
    rw [State.setCnt_eq, State.setBuf_eq] at hwait ⊢
    exact .inl ⟨hwait, rfl⟩
  all_goals exact .inl ⟨hwait, rfl⟩

/-- No instruction moves the clock. -/
theorem Effect.clock (h : Effect i s t) : t.now = s.now ∧ t.clockBack = s.clockBack := by
  cases h
  case byteStep => rw [byteEffect_eq]; exact ⟨rfl, rfl⟩
  case swapUnderrun => rw [underrunNotify_eq]; exact ⟨rfl, rfl⟩
  case underrunRetry => rw [retryNeed_eq]; exact ⟨rfl, rfl⟩
  case drainEnd => rw [State.setCnt_eq]; exact ⟨rfl, rfl⟩
  case pullDone => rw [State.setCnt_eq, State.setBuf_eq]; exact ⟨rfl, rfl⟩
  case closeBoth tx _ rd => rw [closed_eq tx rd]; exact ⟨rfl, rfl⟩
  all_goals exact ⟨rfl, rfl⟩

theorem underrunPast_iff (s : State) :
    s.underrunPast = true ↔
      ∀ last, s.underrunLast = some last → s.clockBack = true ∨ last ≤ s.now := by
  unfold State.underrunPast
  split
  · rename_i h; simp [h]
  · rename_i last h; simp [h]

theorem Effect.underrunPast (h : Effect i s t) (hs : s.underrunPast = true) :
    t.underrunPast = true := by
  rw [underrunPast_iff] at hs ⊢
  obtain ⟨hnow, hback⟩ := h.clock
  intro last hlast
  rw [hnow, hback]
  obtain ⟨-, -, -, hlast', -⟩ | ⟨-, hsame | ⟨hnone, -⟩⟩ := h.notifies_or
  · exact .inr (Option.some.inj (hlast.symm.trans hlast')).le
  · exact hs last (hsame ▸ hlast)
  · rw [hnone] at hlast
    cases hlast

theorem setClock_underrunPast (now : Nat) (hs : s.underrunPast = true) :
    (s.setClock now).underrunPast = true := by
  rw [underrunPast_iff] at hs ⊢
  intro last hlast
  show (s.clockBack || decide (now < s.now)) = true ∨ last ≤ now
  rw [Bool.or_eq_true, decide_eq_true_iff]
  obtain hback | hle := hs last hlast
  · exact .inl (.inl hback)
  · obtain hlt | hge := Nat.lt_or_ge now s.now
    exacts [.inl (.inr hlt), .inr (hle.trans hge)]

theorem Effect.traceOk (h : Effect i s t) (hs : s.traceOk) : t.traceOk := by
  obtain ⟨hevents, hwrite, hpast⟩ := hs
  obtain ⟨-, hparams⟩ := h.misuse_params
  refine ⟨fun e he => ?_, fun hwait => ?_, h.underrunPast hpast⟩
  · rw [hparams]
    obtain hsame | ⟨e', hone, he'⟩ := h.event_ok
    · exact hevents e (hsame ▸ he)
    · rw [hone, List.mem_append, List.mem_singleton] at he
      obtain he | rfl := he
      exacts [hevents e he, he']
  · rw [hparams]
    obtain ⟨hwait', hsame⟩ | hok := h.write_ok hwait
    · rw [hsame]
      exact hwrite hwait'
    · exact hok

theorem Move.traceOk (h : Move s t) (hs : s.traceOk) : t.traceOk := by
  cases h with
  | effect heff => exact heff.traceOk hs
  | clock =>
    obtain ⟨hevents, hwrite, hpast⟩ := hs
    exact ⟨hevents, hwrite, setClock_underrunPast _ hpast⟩
  | _ => exact hs

end Sys2Proof.Machine

namespace Sys2Proof.Proofs

open Sys2Proof.Machine

/-- Settles O58: a loop's failure value changes where the loop fails or starts, and a working byte
is stored only where its bit 7 is the one its place asks for. -/
theorem failureValuesAndWorkingBytesStayConsistent :
    Obligations.FailureValuesAndWorkingBytesStayConsistent :=
  fun _ _ h => ⟨fun hs => step_keeps (P := State.failuresOk) id Move.failuresOk hs h,
    fun hs => step_keeps (P := State.syncOk) id Move.syncOk hs h⟩

/-- Settles O59: an effect's one event is well formed by the conditions the effect is had under. -/
theorem emittedEventsStayWellFormed : Obligations.EmittedEventsStayWellFormed :=
  fun _ _ hs h => step_keeps (P := State.traceOk) id Move.traceOk hs h

end Sys2Proof.Proofs
end

section
/-! PROOFS. The need handshake, the lock and the two buffers (43_transmitter R212, 20_memory R81,
R83). The invariant is read state by state of the main loop: with `w` frames in the write buffer,
`c` in the client buffer and the next frame at `x`, `MainLoop` says what the loop's state asks of
them, and `Pull` what the Producer's asks. -/

namespace Sys2Proof.Machine

variable {s t : State} {i : Instr}

/-! ### The invariant, state by state -/

/-- What the main loop's state says of the buffers and the need. -/
def MainLoop (tx : BitVec 4) (w c x : Nat) (need : Bool) : Prop :=
  (tx = TX_PRELOAD ∨ tx = TX_SWAP ∨ tx = TX_UNDERRUN_WAIT → w = 0 ∧ x = 0) ∧
    (tx = TX_PRELOAD → need = false ∧ c = 0) ∧
    (tx = TX_NEXT → 0 < w ∧ x ≤ w) ∧
    (tx = TX_HALF_NEED ∨ tx = TX_THROTTLE ∨ tx = TX_THROTTLE_WAIT ∨ tx = TX_WRITE_WAIT → x < w) ∧
    (tx = TX_HALF_NEED → x = w / 2) ∧
    (tx = TX_HALF_NEED ∨ (tx = TX_NEXT ∧ x ≤ w / 2) ∨
        ((tx = TX_THROTTLE ∨ tx = TX_THROTTLE_WAIT ∨ tx = TX_WRITE_WAIT) ∧ x < w / 2) →
      need = false ∧ c = 0)

/-- What the Producer's state says of the lock, the need and the pull outstanding. -/
def Pull (frames : Nat) (pr : BitVec 2) (lock need : Bool) (player : Byte) (max c : Nat) : Prop :=
  (lock = true ↔ pr = PR_PULL_WAIT) ∧
    (pr = PR_PULL_WAIT → need = true ∧ player ≠ 0 ∧ max = frames) ∧ (0 < c → need = false)

/-- Both counts are within the capacity. -/
def Counts (s : State) : Prop := ∀ b, s.cnt b ≤ s.params.txBufFrames

theorem counts_iff (s : State) :
    Counts s ↔ s.cnt0 ≤ s.params.txBufFrames ∧ s.cnt1 ≤ s.params.txBufFrames :=
  ⟨fun h => ⟨h false, h true⟩, fun ⟨h0, h1⟩ b => by cases b <;> assumption⟩

theorem handshakeOk_iff (s : State) :
    s.handshakeOk ↔
      Counts s ∧
        Pull s.params.txBufFrames s.prState s.lock s.need s.pullPlayer s.pullMax (s.cnt s.client) ∧
        MainLoop s.txState (s.cnt s.wsel) (s.cnt s.client) s.widx s.need := by
  simp only [counts_iff, State.handshakeOk, Pull, MainLoop, and_assoc]

section
variable {w c x : Nat} {need : Bool}

theorem mainLoop_preload :
    MainLoop TX_PRELOAD w c x need ↔ w = 0 ∧ x = 0 ∧ need = false ∧ c = 0 := by
  simp [MainLoop, TX_PRELOAD, TX_SWAP, TX_UNDERRUN_WAIT, TX_NEXT, TX_HALF_NEED, TX_THROTTLE,
    TX_THROTTLE_WAIT, TX_WRITE_WAIT, and_assoc]

/-- In `TX_SWAP` and `TX_UNDERRUN_WAIT` the write buffer is drained. -/
theorem mainLoop_swapping {tx : BitVec 4} (h : tx = TX_SWAP ∨ tx = TX_UNDERRUN_WAIT) :
    MainLoop tx w c x need ↔ w = 0 ∧ x = 0 := by
  obtain rfl | rfl := h <;>
    simp [MainLoop, TX_PRELOAD, TX_SWAP, TX_UNDERRUN_WAIT, TX_NEXT, TX_HALF_NEED, TX_THROTTLE,
      TX_THROTTLE_WAIT, TX_WRITE_WAIT]

theorem mainLoop_next :
    MainLoop TX_NEXT w c x need ↔ 0 < w ∧ x ≤ w ∧ (x ≤ w / 2 → need = false ∧ c = 0) := by
  simp [MainLoop, TX_PRELOAD, TX_SWAP, TX_UNDERRUN_WAIT, TX_NEXT, TX_HALF_NEED, TX_THROTTLE,
    TX_THROTTLE_WAIT, TX_WRITE_WAIT, and_assoc]

theorem mainLoop_halfNeed :
    MainLoop TX_HALF_NEED w c x need ↔ x < w ∧ x = w / 2 ∧ need = false ∧ c = 0 := by
  simp [MainLoop, TX_PRELOAD, TX_SWAP, TX_UNDERRUN_WAIT, TX_NEXT, TX_HALF_NEED, TX_THROTTLE,
    TX_THROTTLE_WAIT, TX_WRITE_WAIT]

/-- In the states of a frame's write the frame is in the write buffer. -/
theorem mainLoop_writing {tx : BitVec 4}
    (h : tx = TX_THROTTLE ∨ tx = TX_THROTTLE_WAIT ∨ tx = TX_WRITE_WAIT) :
    MainLoop tx w c x need ↔ x < w ∧ (x < w / 2 → need = false ∧ c = 0) := by
  obtain rfl | rfl | rfl := h <;>
    simp [MainLoop, TX_PRELOAD, TX_SWAP, TX_UNDERRUN_WAIT, TX_NEXT, TX_HALF_NEED, TX_THROTTLE,
      TX_THROTTLE_WAIT, TX_WRITE_WAIT]

/-- A main loop that has stopped asks for nothing. -/
theorem mainLoop_ended {tx : BitVec 4} (h : tx = TX_STOPPED ∨ tx = TX_FAILED) :
    MainLoop tx w c x need := by
  obtain rfl | rfl := h <;>
    simp [MainLoop, TX_STOPPED, TX_FAILED, TX_PRELOAD, TX_SWAP, TX_UNDERRUN_WAIT, TX_NEXT,
      TX_HALF_NEED, TX_THROTTLE, TX_THROTTLE_WAIT, TX_WRITE_WAIT]

/-- While a need is out the main loop asks nothing of the need and of the client buffer. -/
theorem MainLoop.of_need {tx : BitVec 4} {c' : Nat} {need' : Bool} (h : MainLoop tx w c x true) :
    MainLoop tx w c' x need' := by
  obtain ⟨hswap, hpreload, hnext, hwriting, hhalf, hbefore⟩ := h
  exact ⟨hswap, fun h => absurd (hpreload h).1 (by decide), hnext, hwriting, hhalf,
    fun h => absurd (hbefore h).1 (by decide)⟩

/-- A need is raised where none is out and no frame waits. -/
theorem Pull.raise {frames max : Nat} {pr : BitVec 2} {lock : Bool} {player : Byte}
    (h : Pull frames pr lock need player max c) (hc : c = 0) :
    Pull frames pr lock true player max c := by
  obtain ⟨hlock, hpull, -⟩ := h
  exact ⟨hlock, fun hw => ⟨rfl, (hpull hw).2⟩, fun hpos => absurd hc hpos.ne'⟩

/-- A retry raises the need where none is out and no frame waits (43_transmitter R197). -/
theorem Pull.retry {frames max : Nat} {pr : BitVec 2} {lock : Bool} {player : Byte}
    (h : Pull frames pr lock need player max c) :
    Pull frames pr lock (need || decide (c = 0)) player max c := by
  by_cases hc : c = 0
  · rw [decide_eq_true hc, Bool.or_true]
    exact h.raise hc
  · rw [decide_eq_false hc, Bool.or_false]
    exact h

/-- The lock is held by a pull outstanding only. -/
theorem Pull.lock_eq_false {frames max : Nat} {pr : BitVec 2} {lock : Bool} {player : Byte}
    (h : Pull frames pr lock need player max c) (hpr : pr ≠ PR_PULL_WAIT) : lock = false :=
  Bool.eq_false_of_not_eq_true fun hl => hpr (h.1.1 hl)

/-- A Producer with no pull outstanding changes its state. -/
theorem Pull.leave {frames max : Nat} {pr pr' : BitVec 2} {lock : Bool} {player : Byte}
    (h : Pull frames pr lock need player max c) (hpr : pr ≠ PR_PULL_WAIT)
    (hpr' : pr' ≠ PR_PULL_WAIT) : Pull frames pr' lock need player max c := by
  have hlock := h.lock_eq_false hpr
  obtain ⟨-, -, hready⟩ := h
  subst hlock
  exact ⟨⟨nofun, fun hw => absurd hw hpr'⟩, fun hw => absurd hw hpr', hready⟩

/-- Where no pull is out and no need, the Producer asks nothing of the client buffer. -/
theorem pull_idle {frames max : Nat} {pr : BitVec 2} {lock : Bool} {player : Byte}
    (hpr : pr ≠ PR_PULL_WAIT) (hlock : lock = false) (hneed : need = false) :
    Pull frames pr lock need player max c := by
  subst hlock hneed
  exact ⟨⟨nofun, fun hw => absurd hw hpr⟩, fun hw => absurd hw hpr, fun _ => rfl⟩

end

/-- The invariant from the two counts by their roles. -/
theorem handshakeOk_of_counts {w c : Nat} (hcnt : Counts s) (hw : s.cnt s.wsel = w)
    (hc : s.cnt s.client = c)
    (hpull : Pull s.params.txBufFrames s.prState s.lock s.need s.pullPlayer s.pullMax c)
    (hloop : MainLoop s.txState w c s.widx s.need) : s.handshakeOk := by
  subst hw hc
  exact (handshakeOk_iff s).2 ⟨hcnt, hpull, hloop⟩

/-- The counts after a pull's frames and their number are stored in the client buffer. -/
theorem pulled_cnt (s : State) (m : Memory Frame) (n : Nat) (b : Bool) :
    ((s.setBuf s.client m).setCnt s.client n).cnt b = if b = s.client then n else s.cnt b := by
  rw [State.setCnt_cnt, State.setBuf_cnt]

/-! ### The effects -/

/-- Each effect keeps the invariant, from what the main loop's state asked before it. -/
theorem Effect.handshakeOk (h : Effect i s t) (hs : s.handshakeOk) : t.handshakeOk := by
  obtain ⟨hcnt, hpull, hloop⟩ := (handshakeOk_iff s).1 hs
  cases h
  case preload at_ free =>
    rw [at_, mainLoop_preload] at hloop
    obtain ⟨hw, hx, -, hc⟩ := hloop
    exact (handshakeOk_iff _).2 ⟨hcnt, hpull.raise hc, (mainLoop_swapping (.inl rfl)).2 ⟨hw, hx⟩⟩
  case swapOk at_ unlocked ready =>
    rw [at_, mainLoop_swapping (.inl rfl)] at hloop
    obtain ⟨hlock, -, hready⟩ := hpull
    have hpr : s.prState ≠ PR_PULL_WAIT := fun h => by
      rw [hlock.2 h] at unlocked
      cases unlocked
    have hclient : s.cnt (!!s.wsel) = 0 := by rw [Bool.not_not]; exact hloop.1
    exact handshakeOk_of_counts hcnt rfl hclient (pull_idle hpr unlocked (hready ready))
      (mainLoop_next.2 ⟨ready, Nat.zero_le _, fun _ => ⟨hready ready, rfl⟩⟩)
  case swapUnderrun at_ _ _ _ =>
    rw [at_, mainLoop_swapping (.inl rfl)] at hloop
    rw [underrunNotify_eq]
    exact (handshakeOk_iff _).2 ⟨hcnt, hpull, (mainLoop_swapping (.inr rfl)).2 hloop⟩
  case underrunRetry at_ _ _ =>
    rw [at_, mainLoop_swapping (.inr rfl)] at hloop
    rw [retryNeed_eq]
    exact (handshakeOk_iff _).2 ⟨hcnt, hpull.retry, (mainLoop_swapping (.inl rfl)).2 hloop⟩
  case drainEnd =>
    have hcnt' (b : Bool) := State.setCnt_cnt s s.wsel b 0
    rw [State.setCnt_eq] at hcnt' ⊢
    refine handshakeOk_of_counts (fun b => ?_) ((hcnt' _).trans (if_pos rfl))
      ((hcnt' _).trans (if_neg s.client_ne_wsel.symm)) hpull
      ((mainLoop_swapping (.inl rfl)).2 ⟨rfl, rfl⟩)
    refine (hcnt' b).trans_le ?_
    split
    exacts [Nat.zero_le _, hcnt b]
  case halfPoint at_ more half =>
    rw [at_, mainLoop_next] at hloop
    obtain ⟨-, -, hbefore⟩ := hloop
    exact (handshakeOk_iff _).2 ⟨hcnt, hpull, mainLoop_halfNeed.2 ⟨more, half, hbefore half.le⟩⟩
  case nextFrame at_ more _ =>
    rw [at_, mainLoop_next] at hloop
    obtain ⟨-, -, hbefore⟩ := hloop
    exact (handshakeOk_iff _).2
      ⟨hcnt, hpull, (mainLoop_writing (.inl rfl)).2 ⟨more, fun hlt => hbefore hlt.le⟩⟩
  case halfNeed at_ free =>
    rw [at_, mainLoop_halfNeed] at hloop
    obtain ⟨hx, hhalf, -, hc⟩ := hloop
    exact (handshakeOk_iff _).2 ⟨hcnt, hpull.raise hc,
      (mainLoop_writing (.inl rfl)).2 ⟨hx, fun hlt => absurd hhalf hlt.ne⟩⟩
  case throttlePass at_ _ _ =>
    rw [at_, mainLoop_writing (.inl rfl)] at hloop
    exact (handshakeOk_iff _).2 ⟨hcnt, hpull, (mainLoop_writing (.inr (.inr rfl))).2 hloop⟩
  case throttleHold at_ _ _ =>
    rw [at_, mainLoop_writing (.inl rfl)] at hloop
    exact (handshakeOk_iff _).2 ⟨hcnt, hpull, (mainLoop_writing (.inr (.inl rfl))).2 hloop⟩
  case throttleRecheck at_ _ _ =>
    rw [at_, mainLoop_writing (.inr (.inl rfl))] at hloop
    exact (handshakeOk_iff _).2 ⟨hcnt, hpull, (mainLoop_writing (.inl rfl)).2 hloop⟩
  case writeOk at_ _ =>
    rw [at_, mainLoop_writing (.inr (.inr rfl))] at hloop
    obtain ⟨hx, hbefore⟩ := hloop
    exact (handshakeOk_iff _).2 ⟨hcnt, hpull, mainLoop_next.2 ⟨Nat.zero_lt_of_lt hx, hx, hbefore⟩⟩
  case writeFail => exact (handshakeOk_iff _).2 ⟨hcnt, hpull, mainLoop_ended (.inr rfl)⟩
  case pullIssue at_ raised attached =>
    obtain ⟨-, -, hready⟩ := hpull
    have hempty : s.cnt s.client = 0 := by
      by_contra hne
      rw [hready (Nat.pos_of_ne_zero hne)] at raised
      cases raised
    have hmax : s.params.txBufFrames - s.cnt s.client = s.params.txBufFrames := by
      rw [hempty, Nat.sub_zero]
    exact (handshakeOk_iff _).2
      ⟨hcnt, ⟨⟨fun _ => rfl, fun _ => rfl⟩, fun _ => ⟨raised, attached, hmax⟩, hready⟩, hloop⟩
  case pullNone at_ raised _ =>
    have hpr : s.prState ≠ PR_PULL_WAIT := by rw [at_]; decide
    rw [raised] at hloop
    exact (handshakeOk_iff _).2 ⟨hcnt, pull_idle hpr (hpull.lock_eq_false hpr) rfl, hloop.of_need⟩
  case pullDone frames at_ _ _ fits =>
    rw [(hpull.2.1 at_).1] at hloop
    have hroom : s.cnt s.client + frames.length ≤ s.params.txBufFrames := by
      obtain rfl | hfits := fits
      exacts [hcnt s.client, hfits]
    have hcnt' := pulled_cnt s
      (Memory.writeFrom Config.unwrittenFrame (s.buf s.client) (s.cnt s.client) frames)
      (s.cnt s.client + frames.length)
    rw [State.setCnt_eq, State.setBuf_eq] at hcnt' ⊢
    refine handshakeOk_of_counts (fun b => ?_) ((hcnt' _).trans (if_neg s.client_ne_wsel))
      ((hcnt' _).trans (if_pos rfl)) (pull_idle (of_decide_eq_false rfl) rfl rfl) hloop.of_need
    refine (hcnt' b).trans_le ?_
    split
    exacts [hroom, hcnt b]
  case startTx =>
    exact (handshakeOk_iff _).2 ⟨fun b => by cases b <;> exact Nat.zero_le _,
      pull_idle (of_decide_eq_false rfl) rfl rfl, mainLoop_preload.2 ⟨rfl, rfl, rfl, rfl⟩⟩
  case closePart pull _ =>
    exact (handshakeOk_iff _).2
      ⟨hcnt, hpull.leave pull (of_decide_eq_false rfl), mainLoop_ended (.inl rfl)⟩
  case closeBoth tx _ rd =>
    rw [closed_eq tx rd]
    refine (handshakeOk_iff _).2 ⟨hcnt, ?_, mainLoop_ended (.inl rfl)⟩
    obtain ⟨-, rfl⟩ | ⟨-, -, pull, rfl⟩ := tx
    exacts [hpull, hpull.leave pull (of_decide_eq_false rfl)]
  case byteStep => rw [byteEffect_eq]; exact hs
  all_goals exact hs

theorem Move.handshakeOk (h : Move s t) (hs : s.handshakeOk) : t.handshakeOk := by
  cases h with
  | effect heff => exact heff.handshakeOk hs
  | _ => exact hs

end Sys2Proof.Machine

namespace Sys2Proof.Proofs

open Sys2Proof.Machine

/-- Settles O57: the invariant is inductive alone; each effect keeps it by what the main loop's
state before and behind it asks. -/
theorem theHandshakeStaysConsistent : Obligations.TheHandshakeStaysConsistent :=
  fun _ _ hs h => step_keeps (P := State.handshakeOk) id Move.handshakeOk hs h

end Sys2Proof.Proofs
end

section
/-! PROOFS. The session (10_state R45, R47; 44_control section 2; 90_conflicts C15): the loops'
states fit it, the listener is registered while the Transmitter is not stopped, and answers are on
offer where they were asked for. -/

namespace Sys2Proof.Machine

variable {s t : State} {i : Instr}

/-! ### The parts of the session's invariant -/

/-- What the session's state says of the loops' states and of `cu_busy`. -/
def LoopsFit (ss : BitVec 3) (rd : BitVec 3) (tx : BitVec 4) (pr : BitVec 2) (busy : Bool) : Prop :=
  (ss = SS_CLOSED ∨ ss = SS_OPENING ∨ ss = SS_START_RD →
      rd = RD_STOPPED ∧ tx = TX_STOPPED ∧ pr = PR_STOPPED) ∧
    (ss = SS_START_TX → rd ≠ RD_STOPPED ∧ tx = TX_STOPPED ∧ pr = PR_STOPPED) ∧
    (ss = SS_OPEN → rd ≠ RD_STOPPED) ∧
    (busy = true ↔ ss = SS_OPENING ∨ ss = SS_START_RD ∨ ss = SS_START_TX)

/-- The Producer and the listener go with the Transmitter. -/
def TransmitterFits (tx : BitVec 4) (pr : BitVec 2) (ids : List Byte) : Prop :=
  (tx = TX_STOPPED ↔ pr = PR_STOPPED) ∧ (LISTENER ∈ ids ↔ tx ≠ TX_STOPPED)

/-- An answer is on offer only where its request is outstanding (60_exceptions R288). -/
structure OffersFit (s : State) : Prop where
  read : s.envRead.isSome = true → s.rdState = RD_READ
  write : s.envWrite.isSome = true → s.txState = TX_WRITE_WAIT
  pull : s.envPull.isSome = true → s.prState = PR_PULL_WAIT
  device : s.envDevice.isSome = true → s.ssState = SS_OPENING
  ack : s.envAck.isSome = true →
    s.rdState = RD_DISPATCH ∧ s.dispList[s.dispIdx]? = s.envAck ∧ s.envAck ≠ some LISTENER

theorem sessionOk_iff (s : State) :
    s.sessionOk ↔
      LoopsFit s.ssState s.rdState s.txState s.prState s.cuBusy ∧
        TransmitterFits s.txState s.prState s.recReg ∧ OffersFit s := by
  constructor
  · rintro ⟨h1, h2, h3, h4, h5, h6, h7, h8, h9, h10, h11⟩
    exact ⟨⟨h1, h2, h3, h4⟩, ⟨h5, h6⟩, h7, h8, h9, h10, h11⟩
  · rintro ⟨⟨h1, h2, h3, h4⟩, ⟨h5, h6⟩, h7, h8, h9, h10, h11⟩
    exact ⟨h1, h2, h3, h4, h5, h6, h7, h8, h9, h10, h11⟩

section
variable {ss rd : BitVec 3} {tx : BitVec 4} {pr : BitVec 2} {busy : Bool}

/-- A Reader that has been started goes on to another of its states. -/
theorem LoopsFit.moveRd {rd' : BitVec 3} (h : LoopsFit ss rd tx pr busy) (hrd : rd ≠ RD_STOPPED)
    (hrd' : rd' ≠ RD_STOPPED) : LoopsFit ss rd' tx pr busy := by
  obtain ⟨hstopped, hstart, -, hbusy⟩ := h
  exact ⟨fun hss => absurd (hstopped hss).1 hrd, fun hss => ⟨hrd', (hstart hss).2⟩, fun _ => hrd',
    hbusy⟩

/-- A Transmitter that has been started goes on to other states of its agents, or is closed. -/
theorem LoopsFit.moveTx {tx' : BitVec 4} {pr' : BitVec 2} (h : LoopsFit ss rd tx pr busy)
    (htx : tx ≠ TX_STOPPED) : LoopsFit ss rd tx' pr' busy := by
  obtain ⟨hstopped, hstart, hopen, hbusy⟩ := h
  exact ⟨fun hss => absurd (hstopped hss).2.1 htx, fun hss => absurd (hstart hss).2.1 htx, hopen,
    hbusy⟩

theorem loopsFit_closed :
    LoopsFit SS_CLOSED rd tx pr busy ↔
      (rd = RD_STOPPED ∧ tx = TX_STOPPED ∧ pr = PR_STOPPED) ∧ busy = false := by
  simp [LoopsFit, SS_CLOSED, SS_OPENING, SS_START_RD, SS_START_TX, SS_OPEN]

/-- Before the starts no loop has been started, and the OPEN is in progress. -/
theorem loopsFit_opening (h : ss = SS_OPENING ∨ ss = SS_START_RD) :
    LoopsFit ss rd tx pr busy ↔
      (rd = RD_STOPPED ∧ tx = TX_STOPPED ∧ pr = PR_STOPPED) ∧ busy = true := by
  obtain rfl | rfl := h <;>
    simp [LoopsFit, SS_CLOSED, SS_OPENING, SS_START_RD, SS_START_TX, SS_OPEN]

theorem loopsFit_startTx :
    LoopsFit SS_START_TX rd tx pr busy ↔
      (rd ≠ RD_STOPPED ∧ tx = TX_STOPPED ∧ pr = PR_STOPPED) ∧ busy = true := by
  simp [LoopsFit, SS_CLOSED, SS_OPENING, SS_START_RD, SS_START_TX, SS_OPEN]

theorem loopsFit_open :
    LoopsFit SS_OPEN rd tx pr busy ↔ rd ≠ RD_STOPPED ∧ busy = false := by
  simp [LoopsFit, SS_CLOSED, SS_OPENING, SS_START_RD, SS_START_TX, SS_OPEN]

/-- A Producer that is not stopped has a Transmitter that is not. -/
theorem TransmitterFits.tx_ne {ids : List Byte} (h : TransmitterFits tx pr ids)
    (hpr : pr ≠ PR_STOPPED) : tx ≠ TX_STOPPED := fun htx => hpr (h.1.1 htx)

/-- A Transmitter that is not stopped goes on to another of its states. -/
theorem TransmitterFits.moveTx {tx' : BitVec 4} {ids : List Byte} (h : TransmitterFits tx pr ids)
    (htx : tx ≠ TX_STOPPED) (htx' : tx' ≠ TX_STOPPED) : TransmitterFits tx' pr ids :=
  ⟨⟨fun h => absurd h htx', fun hpr => absurd (h.1.2 hpr) htx⟩,
    ⟨fun _ => htx', fun _ => h.2.2 htx⟩⟩

/-- A Producer that is not stopped goes on to another of its states. -/
theorem TransmitterFits.movePr {pr' : BitVec 2} {ids : List Byte} (h : TransmitterFits tx pr ids)
    (hpr : pr ≠ PR_STOPPED) (hpr' : pr' ≠ PR_STOPPED) : TransmitterFits tx pr' ids :=
  ⟨⟨fun htx => absurd (h.1.1 htx) hpr, fun h => absurd h hpr'⟩, h.2⟩

theorem transmitterFits_stopped {ids : List Byte} (h : LISTENER ∉ ids) :
    TransmitterFits TX_STOPPED PR_STOPPED ids :=
  ⟨⟨fun _ => rfl, fun _ => rfl⟩, ⟨fun hin => absurd hin h, fun hne => absurd rfl hne⟩⟩

/-- The Transmitter's start registers the listener. -/
theorem transmitterFits_started (ids : List Byte) :
    TransmitterFits TX_PRELOAD PR_WAIT_NEED
      (if LISTENER ∈ ids then ids else ids ++ [LISTENER]) := by
  refine ⟨by decide, fun _ => by decide, fun _ => ?_⟩
  split
  exacts [‹_›, List.mem_append_right _ (List.mem_singleton_self _)]

theorem listener_notMem_filter (ids : List Byte) : LISTENER ∉ ids.filter (· ≠ LISTENER) := by
  simp

theorem listener_mem_append {ids : List Byte} {id : Byte} (hid : id ≠ 0) :
    LISTENER ∈ ids ++ [id] ↔ LISTENER ∈ ids := by
  rw [List.mem_append, List.mem_singleton, or_iff_left]
  exact fun h => hid h.symm

theorem listener_mem_filter {ids : List Byte} {id : Byte} (hid : id ≠ 0) :
    LISTENER ∈ ids.filter (· ≠ id) ↔ LISTENER ∈ ids := by
  rw [List.mem_filter, and_iff_left]
  exact decide_eq_true fun h => hid h.symm

/-- An id that is not the listener's comes and goes without it. -/
theorem TransmitterFits.congr {ids ids' : List Byte} (h : TransmitterFits tx pr ids)
    (hids : LISTENER ∈ ids' ↔ LISTENER ∈ ids) : TransmitterFits tx pr ids' :=
  ⟨h.1, hids.trans h.2⟩

end

/-! ### The effects -/

theorem rdState_ne_of_ended {c : BitVec 3} (h : s.rdRunning = false)
    (hc : c = RD_READ ∨ c = RD_PROCESS ∨ c = RD_DISPATCH ∨ c = RD_SLEEP) : s.rdState ≠ c :=
  fun hs => absurd (rdRunning_of_code hs hc) (ne_true_of_eq_false h)

theorem txState_ne_of_ended {c : BitVec 4} (h : s.txRunning = false)
    (hc : TX_PRELOAD ≤ c ∧ c ≤ TX_WRITE_WAIT) : s.txState ≠ c :=
  fun hs => absurd (txRunning_of_code hs hc) (ne_true_of_eq_false h)

section
variable {txClosed : State}

/-- A CLOSE leaves the Producer stopped. -/
theorem closed_prState (h : TransmitterFits s.txState s.prState s.recReg)
    (tx : s.txState = TX_STOPPED ∧ txClosed = s ∨
      s.txState ≠ TX_STOPPED ∧ s.txRunning = false ∧ s.prState ≠ PR_PULL_WAIT ∧
        txClosed = s.txClose) : txClosed.prState = PR_STOPPED := by
  obtain ⟨htx, rfl⟩ | ⟨-, -, -, rfl⟩ := tx
  exacts [h.1.1 htx, rfl]

/-- A CLOSE of the Transmitter finds no write and no pull outstanding. -/
theorem quiet_of_closed (h : TransmitterFits s.txState s.prState s.recReg)
    (tx : s.txState = TX_STOPPED ∧ txClosed = s ∨
      s.txState ≠ TX_STOPPED ∧ s.txRunning = false ∧ s.prState ≠ PR_PULL_WAIT ∧
        txClosed = s.txClose) : s.txState ≠ TX_WRITE_WAIT ∧ s.prState ≠ PR_PULL_WAIT := by
  obtain ⟨htx, -⟩ | ⟨-, ended, pull, -⟩ := tx
  · exact ⟨htx.trans_ne (by decide), (h.1.1 htx).trans_ne (by decide)⟩
  · exact ⟨txState_ne_of_ended ended (by decide), pull⟩

end

/-- A loop moves only where it has been started, and the control unit starts and closes the loops as
it moves the session on. -/
theorem Effect.loopsFit (h : Effect i s t) (hs : s.sessionOk) :
    LoopsFit t.ssState t.rdState t.txState t.prState t.cuBusy := by
  obtain ⟨hloops, hfits, -⟩ := (sessionOk_iff s).1 hs
  cases h
  case byteStep at_ _ _ =>
    have hrd : s.byteEffect.rdState ≠ RD_STOPPED := by
      obtain h | ⟨h, -⟩ := byteEffect_rdState s <;> rw [h]
      exacts [at_.trans_ne (by decide), by decide]
    have hloops' := hloops.moveRd (at_.trans_ne (by decide)) hrd
    rw [byteEffect_eq]
    exact hloops'
  case readData | readEmpty | readFail | bufDone | sleepDone | dispatchEnd =>
    exact hloops.moveRd (‹s.rdState = _›.trans_ne (by decide)) (of_decide_eq_false rfl)
  case preload | swapOk | halfPoint | nextFrame | halfNeed | throttlePass | throttleHold
    | throttleRecheck | writeOk | writeFail =>
    exact hloops.moveTx (‹s.txState = _›.trans_ne (by decide))
  case swapUnderrun =>
    rw [underrunNotify_eq]
    exact hloops.moveTx (‹s.txState = _›.trans_ne (by decide))
  case underrunRetry =>
    rw [retryNeed_eq]
    exact hloops.moveTx (‹s.txState = _›.trans_ne (by decide))
  case drainEnd =>
    rw [State.setCnt_eq]
    exact hloops.moveTx (‹s.txState = _›.trans_ne (by decide))
  case pullIssue => exact hloops.moveTx (hfits.tx_ne (‹s.prState = _›.trans_ne (by decide)))
  case pullDone =>
    rw [State.setCnt_eq, State.setBuf_eq]
    exact hloops.moveTx (hfits.tx_ne (‹s.prState = _›.trans_ne (by decide)))
  case openSession at_ =>
    rw [at_, loopsFit_closed] at hloops
    exact (loopsFit_opening (.inl rfl)).2 ⟨hloops.1, rfl⟩
  case deviceOpenOk at_ _ =>
    rw [at_, loopsFit_opening (.inl rfl)] at hloops
    exact (loopsFit_opening (.inr rfl)).2 hloops
  case deviceOpenFail at_ _ =>
    rw [at_, loopsFit_opening (.inl rfl)] at hloops
    exact loopsFit_closed.2 ⟨hloops.1, rfl⟩
  case startRd at_ =>
    rw [at_, loopsFit_opening (.inr rfl)] at hloops
    obtain ⟨⟨-, hstopped⟩, hbusy⟩ := hloops
    exact loopsFit_startTx.2 ⟨⟨of_decide_eq_false rfl, hstopped⟩, hbusy⟩
  case startTx at_ =>
    rw [at_, loopsFit_startTx] at hloops
    obtain ⟨⟨hrd, -⟩, -⟩ := hloops
    exact loopsFit_open.2 ⟨hrd, rfl⟩
  case closePart => exact hloops.moveTx ‹s.txState ≠ _›
  case closeBoth free _ tx _ rd =>
    have hpr := closed_prState hfits tx
    rw [closed_eq tx rd]
    exact loopsFit_closed.2 ⟨⟨rfl, rfl, hpr⟩, free⟩
  all_goals exact hloops

/-- The Transmitter and its Producer start and stop together, and the listener with them; a host
command names other ids only. -/
theorem Effect.transmitterFits (h : Effect i s t)
    (hs : TransmitterFits s.txState s.prState s.recReg) :
    TransmitterFits t.txState t.prState t.recReg := by
  cases h
  case preload | swapOk | halfPoint | nextFrame | halfNeed | throttlePass | throttleHold
    | throttleRecheck | writeOk | writeFail =>
    exact hs.moveTx (‹s.txState = _›.trans_ne (by decide)) (of_decide_eq_false rfl)
  case swapUnderrun =>
    rw [underrunNotify_eq]
    exact hs.moveTx (‹s.txState = _›.trans_ne (by decide)) (of_decide_eq_false rfl)
  case underrunRetry =>
    rw [retryNeed_eq]
    exact hs.moveTx (‹s.txState = _›.trans_ne (by decide)) (of_decide_eq_false rfl)
  case drainEnd =>
    rw [State.setCnt_eq]
    exact hs.moveTx (‹s.txState = _›.trans_ne (by decide)) (of_decide_eq_false rfl)
  case pullIssue =>
    exact hs.movePr (‹s.prState = _›.trans_ne (by decide)) (of_decide_eq_false rfl)
  case pullDone =>
    rw [State.setCnt_eq, State.setBuf_eq]
    exact hs.movePr (‹s.prState = _›.trans_ne (by decide)) (of_decide_eq_false rfl)
  case startTx => exact transmitterFits_started s.recReg
  case attachRec ext _ _ _ => exact hs.congr (listener_mem_append ext)
  case detachRec ext _ => exact hs.congr (listener_mem_filter ext)
  case closePart => exact transmitterFits_stopped (listener_notMem_filter s.recReg)
  case closeBoth tx _ rd =>
    rw [closed_eq tx rd]
    obtain ⟨htx, rfl⟩ | ⟨-, -, -, rfl⟩ := tx
    · exact htx ▸ hs
    · exact transmitterFits_stopped (listener_notMem_filter s.recReg)
  case byteStep => rw [byteEffect_eq]; exact hs
  all_goals exact hs

/-- A step takes the answer it waits for, and no other agent's request ends with it. -/
theorem Effect.offersFit (h : Effect i s t) (hs : s.sessionOk) : OffersFit t := by
  obtain ⟨hloops, hfits, ho⟩ := (sessionOk_iff s).1 hs
  cases h
  case byteStep at_ _ _ =>
    rw [byteEffect_eq]
    exact { ho with
      read := fun h => absurd ((ho.read h).symm.trans at_) (by decide)
      ack := fun h => absurd ((ho.ack h).1.symm.trans at_) (by decide) }
  case readData | readEmpty | readFail =>
    exact { ho with
      read := nofun
      ack := fun h => absurd ((ho.ack h).1.symm.trans ‹s.rdState = _›) (by decide) }
  case bufDone | sleepDone =>
    exact { ho with
      read := fun h => absurd ((ho.read h).symm.trans ‹s.rdState = _›) (by decide)
      ack := fun h => absurd ((ho.ack h).1.symm.trans ‹s.rdState = _›) (by decide) }
  case dispatchExt => exact { ho with ack := nofun }
  case feedback entry =>
    refine { ho with ack := fun h => ?_ }
    obtain ⟨-, hentry, hne⟩ := ho.ack h
    exact absurd (hentry.symm.trans entry) hne
  case dispatchEnd at_ all =>
    refine { ho with
      read := fun h => absurd ((ho.read h).symm.trans at_) (by decide)
      ack := fun h => ?_ }
    obtain ⟨-, hentry, -⟩ := ho.ack h
    rw [all, List.getElem?_eq_none le_rfl] at hentry
    exact absurd h (by rw [State.gotoRd_envAck, ← hentry]; decide)
  case preload | swapOk | halfPoint | nextFrame | halfNeed | throttlePass | throttleHold
    | throttleRecheck =>
    exact { ho with write := fun h => absurd ((ho.write h).symm.trans ‹s.txState = _›) (by decide) }
  case swapUnderrun =>
    rw [underrunNotify_eq]
    exact { ho with write := fun h => absurd ((ho.write h).symm.trans ‹s.txState = _›) (by decide) }
  case underrunRetry =>
    rw [retryNeed_eq]
    exact { ho with write := fun h => absurd ((ho.write h).symm.trans ‹s.txState = _›) (by decide) }
  case drainEnd =>
    rw [State.setCnt_eq]
    exact { ho with write := fun h => absurd ((ho.write h).symm.trans ‹s.txState = _›) (by decide) }
  case writeOk | writeFail => exact { ho with write := nofun }
  case pullIssue => exact { ho with pull := fun _ => rfl }
  case pullDone => rw [State.setCnt_eq, State.setBuf_eq]; exact { ho with pull := nofun }
  case deviceOpenOk | deviceOpenFail => exact { ho with device := nofun }
  case openSession => exact { ho with device := fun _ => rfl }
  case startRd at_ =>
    rw [at_, loopsFit_opening (.inr rfl)] at hloops
    obtain ⟨⟨hrd, -⟩, -⟩ := hloops
    exact { ho with
      read := fun _ => rfl
      device := fun h => absurd ((ho.device h).symm.trans at_) (by decide)
      ack := fun h => absurd ((ho.ack h).1.symm.trans hrd) (by decide) }
  case startTx at_ =>
    rw [at_, loopsFit_startTx] at hloops
    obtain ⟨⟨-, htx, hpr⟩, -⟩ := hloops
    exact { ho with
      write := fun h => absurd ((ho.write h).symm.trans htx) (by decide)
      pull := fun h => absurd ((ho.pull h).symm.trans hpr) (by decide)
      device := fun h => absurd ((ho.device h).symm.trans at_) (by decide) }
  case closePart ended pull _ =>
    exact { ho with
      write := fun h => absurd (ho.write h) (txState_ne_of_ended ended (by decide))
      pull := fun h => absurd (ho.pull h) pull }
  case closeBoth free _ tx ended rd =>
    have hbusy : s.ssState ≠ SS_OPENING := fun h => by
      rw [h, loopsFit_opening (.inl rfl), free] at hloops
      exact absurd hloops.2 (by decide)
    have hquiet := quiet_of_closed hfits tx
    rw [closed_eq tx rd]
    exact {
      read := fun h => absurd (ho.read h) (rdState_ne_of_ended ended (by decide))
      write := fun h => absurd (ho.write h) hquiet.1
      pull := fun h => absurd (ho.pull h) hquiet.2
      device := fun h => absurd (ho.device h) hbusy
      ack := fun h => absurd (ho.ack h).1 (rdState_ne_of_ended ended (by decide)) }
  all_goals exact { ho with }

theorem Move.sessionOk (h : Move s t) (hs : s.sessionOk) : t.sessionOk := by
  obtain ⟨hloops, hfits, ho⟩ := (sessionOk_iff s).1 hs
  cases h with
  | idle => exact hs
  | effect heff =>
    exact (sessionOk_iff _).2 ⟨heff.loopsFit hs, heff.transmitterFits hfits, heff.offersFit hs⟩
  | read at_ _ => exact (sessionOk_iff _).2 ⟨hloops, hfits, { ho with read := fun _ => at_ }⟩
  | write at_ _ => exact (sessionOk_iff _).2 ⟨hloops, hfits, { ho with write := fun _ => at_ }⟩
  | pull at_ _ => exact (sessionOk_iff _).2 ⟨hloops, hfits, { ho with pull := fun _ => at_ }⟩
  | device at_ _ => exact (sessionOk_iff _).2 ⟨hloops, hfits, { ho with device := fun _ => at_ }⟩
  | ack at_ entry ext _ =>
    exact (sessionOk_iff _).2 ⟨hloops, hfits,
      { ho with ack := fun _ => ⟨at_, entry, fun h => ext (Option.some.inj h)⟩ }⟩
  | clock => exact hs

end Sys2Proof.Machine

namespace Sys2Proof.Proofs

open Sys2Proof.Machine

/-- Settles O56: the three parts of the invariant, kept together. -/
theorem theSessionStaysConsistent : Obligations.TheSessionStaysConsistent :=
  fun _ _ hs h => step_keeps (P := State.sessionOk) id Move.sessionOk hs h

end Sys2Proof.Proofs
end

section
/-! PROOFS. The invariant at block reset (10_state R55, 70_reset R321): each of its parts. -/

namespace Sys2Proof.Machine

theorem reset_params_ok : State.reset.params.ok :=
  ⟨Nat.succ_pos _, Nat.succ_pos _, Nat.le_of_lt_succ Config.openMaxRecorders.isLt⟩

theorem reset_storesOk : State.reset.storesOk :=
  ⟨rfl, rfl, rfl, rfl, rfl, rfl, Nat.zero_le _, Nat.zero_le _, Nat.zero_le _⟩

theorem reset_handshakeOk : State.reset.handshakeOk :=
  (handshakeOk_iff _).2 ⟨fun b => by cases b <;> exact Nat.zero_le _,
    pull_idle (by decide) rfl rfl, mainLoop_ended (.inl rfl)⟩

theorem reset_sessionOk : State.reset.sessionOk :=
  (sessionOk_iff _).2 ⟨loopsFit_closed.2 ⟨⟨rfl, rfl, rfl⟩, rfl⟩,
    transmitterFits_stopped List.not_mem_nil, ⟨nofun, nofun, nofun, nofun, nofun⟩⟩

theorem reset_failuresOk : State.reset.failuresOk :=
  (failuresOk_iff _).2 ⟨failureOk_start (by decide), failureOk_start (by decide)⟩

theorem reset_syncOk : State.reset.syncOk :=
  (syncOk_iff _).2 ⟨fun _ => rfl, workOk_unsync _⟩

theorem reset_traceOk : State.reset.traceOk :=
  ⟨fun _ he => absurd he List.not_mem_nil, fun h => absurd h (by decide), rfl⟩

end Sys2Proof.Machine

namespace Sys2Proof.Proofs

open Sys2Proof.Machine

/-- Settles O52: at reset nothing is listed, nothing is on offer and no loop has been started, so
each part holds for want of a case; the parameters are in their ranges by their form. -/
theorem resetHasTheInvariant : Obligations.ResetHasTheInvariant :=
  ⟨reset_params_ok, by decide, reset_storesOk, ⟨recorderList_nil _, recorderList_nil _⟩,
    reset_sessionOk, reset_handshakeOk, reset_failuresOk, reset_syncOk, reset_traceOk⟩

end Sys2Proof.Proofs

end

section
/-! PROOFS. The resync property (42_synchronizer R165): the bytes that stand in the Reader's buffer
are stepped over one by one, first the flipped byte, then the payload bytes skipped in `UNSYNC`,
then the seven bytes of the frame. -/

namespace Sys2Proof.Machine

variable {s : State} {x : Byte} {xs ys : List Byte}

/-! ### A Reader with bytes to process -/

/-- The Reader is processing its buffer, no fault is in the way, and its next bytes are those
listed. -/
structure State.HasNext (s : State) (xs : List Byte) : Prop where
  faulted : s.faulted = false
  sync : s.syncState ≤ P5_READ
  processing : s.rdState = RD_PROCESS
  bytes : s.bytesAt s.rdPos xs = true
  within : s.rdPos + xs.length ≤ s.rdLen

/-- The state `n` bytes on, with these working bytes and this `sync_state`. -/
def State.moved (s : State) (n : Nat) (work : SyncWork) (code : BitVec 3) : State :=
  { s with rdPos := s.rdPos + n, syncWork := work, syncState := code }

theorem discardByte_eq_moved (s : State) : s.discardByte = s.moved 1 s.syncWork UNSYNC := rfl

theorem acceptStatus_eq_moved (s : State) :
    s.acceptStatus = s.moved 1 (s.syncWork.put 0 s.nextByte) STATUS_READ := rfl

theorem acceptPayload_eq_moved (s : State) :
    s.acceptPayload =
      s.moved 1 (s.syncWork.put s.syncState.toNat s.nextByte) (s.syncState + 1) := rfl

theorem bytesAt_moved (s : State) (n : Nat) (work : SyncWork) (code : BitVec 3) (xs : List Byte) :
    ∀ i, (s.moved n work code).bytesAt i xs = s.bytesAt i xs := by
  induction xs with
  | nil => exact fun _ => rfl
  | cons x xs ih =>
    intro i
    rw [State.bytesAt, State.bytesAt, ih]
    rfl

theorem bytesAt_append (s : State) (xs ys : List Byte) :
    ∀ i, s.bytesAt i (xs ++ ys) = true → s.bytesAt (i + xs.length) ys = true := by
  induction xs with
  | nil => exact fun _ h => h
  | cons x xs ih =>
    intro i h
    rw [List.cons_append, State.bytesAt, Bool.and_eq_true] at h
    rw [List.length_cons, Nat.add_comm xs.length, ← Nat.add_assoc]
    exact ih _ h.2

/-- Past the first bytes the others are next. -/
theorem State.HasNext.moved (h : s.HasNext (xs ++ ys)) (work : SyncWork) {code : BitVec 3}
    (hcode : code ≤ P5_READ) : (s.moved xs.length work code).HasNext ys where
  faulted := h.faulted
  sync := hcode
  processing := h.processing
  bytes := (bytesAt_moved ..).trans (bytesAt_append s xs ys _ h.bytes)
  within := by
    have := h.within
    rw [List.length_append, ← Nat.add_assoc] at this
    exact this

theorem State.HasNext.nextByte_eq (h : s.HasNext (x :: xs)) : s.nextByte = x := by
  have hbytes := h.bytes
  rw [State.bytesAt, Bool.and_eq_true] at hbytes
  exact of_decide_eq_true hbytes.1

theorem State.HasNext.byteReady (h : s.HasNext (x :: xs)) : s.byteReady := by
  refine ⟨⟨h.faulted, ?_⟩, h.processing, ?_⟩
  · rw [State.reservedCode, h.processing, decide_eq_false (BitVec.not_lt.2 h.sync)]
    rfl
  · have := h.within
    rw [List.length_cons] at this
    omega

/-! ### Byte steps one after the other -/

/-- The first of the byte steps is the transition table's. -/
theorem State.HasNext.byteSteps_succ (h : s.HasNext (x :: xs)) (n : Nat) :
    byteSteps (n + 1) s = byteSteps n s.byteEffect := by
  rw [byteSteps, exec_rdByteStep_of_byteReady h.byteReady]

theorem byteSteps_add {m : Nat} (n : Nat) {t : State} :
    ∀ {s : State}, byteSteps m s = some t → byteSteps (m + n) s = byteSteps n t := by
  induction m with
  | zero =>
    intro s h
    rw [Nat.zero_add, Option.some.inj h]
  | succ m ih =>
    intro s h
    rw [byteSteps] at h
    rw [Nat.succ_add, byteSteps]
    split at h
    next u hu => exact ih h
    next => cases h

/-- Payload bytes are skipped in `UNSYNC` (42_synchronizer R154). -/
theorem byteSteps_skipped : ∀ {s : State}, s.HasNext (xs ++ ys) → s.syncState = UNSYNC →
    (∀ x ∈ xs, x.msb = false) →
    byteSteps xs.length s = some (s.moved xs.length s.syncWork UNSYNC) := by
  induction xs with
  | nil =>
    intro s _ hs _
    rw [← hs]
    rfl
  | cons x xs ih =>
    intro s h hs hlo
    have hx : s.nextByte.msb = false := h.nextByte_eq ▸ hlo x List.mem_cons_self
    have hnext : (s.moved 1 s.syncWork UNSYNC).HasNext (xs ++ ys) :=
      State.HasNext.moved (xs := [x]) h _ (by decide)
    rw [List.length_cons, h.byteSteps_succ, byteEffect_lo_unsync hx hs, discardByte_eq_moved,
      ih hnext rfl fun y hy => hlo y (List.mem_cons_of_mem _ hy), State.moved, State.moved,
      State.moved, Nat.add_comm xs.length, Nat.add_assoc]

/-- A byte with bit 7 set inside a frame sends the synchronizer back to `UNSYNC` (R153). -/
theorem byteSteps_flipped {flipped : List Byte} (h : s.HasNext (flipped ++ ys))
    (hfl : s.syncState = UNSYNC ∧ flipped = [] ∨
      s.syncState ≠ UNSYNC ∧ ∃ x : Byte, x.msb = true ∧ flipped = [x]) :
    byteSteps flipped.length s = some (s.moved flipped.length s.syncWork UNSYNC) := by
  obtain ⟨hs, rfl⟩ | ⟨hs, x, hx, rfl⟩ := hfl
  · rw [← hs]
    rfl
  · rw [List.length_singleton, h.byteSteps_succ 0, byteEffect_hi_of_ne (h.nextByte_eq ▸ hx) hs]
    rfl

/-- A payload byte due at the working byte `k` is stored there (R155). -/
theorem State.HasNext.payload (h : s.HasNext (x :: xs)) {k : BitVec 3} (hs : s.syncState = k)
    (hk : k ≠ UNSYNC) (hk' : k < P5_READ) (hx : x.msb = false) :
    (s.moved 1 (s.syncWork.put k.toNat x) (k + 1)).HasNext xs ∧
      ∀ n, byteSteps (n + 1) s = byteSteps n (s.moved 1 (s.syncWork.put k.toNat x) (k + 1)) := by
  subst hs
  have hcode : s.syncState + 1 ≤ P5_READ := by
    rw [P5_READ] at hk' ⊢
    bv_omega
  refine ⟨State.HasNext.moved (xs := [x]) h _ hcode, fun n => ?_⟩
  rw [h.byteSteps_succ, byteEffect_lo_of_ne (h.nextByte_eq ▸ hx) hk (BitVec.ne_of_lt hk'),
    acceptPayload_eq_moved, h.nextByte_eq]

/-- A status byte due is stored in the working byte 0 (R152). -/
theorem State.HasNext.status (h : s.HasNext (x :: xs)) (hs : s.syncState = UNSYNC)
    (hx : x.msb = true) :
    (s.moved 1 (s.syncWork.put 0 x) STATUS_READ).HasNext xs ∧
      ∀ n, byteSteps (n + 1) s = byteSteps n (s.moved 1 (s.syncWork.put 0 x) STATUS_READ) := by
  refine ⟨State.HasNext.moved (xs := [x]) h _ (by decide), fun n => ?_⟩
  rw [h.byteSteps_succ, byteEffect_hi_unsync (h.nextByte_eq ▸ hx) hs, acceptStatus_eq_moved,
    h.nextByte_eq]

/-- The seven bytes of a wire frame are decoded and the dispatch is started (R156). -/
theorem byteSteps_frame {w : WireFrame} (h : s.HasNext w.bytes) (hs : s.syncState = UNSYNC)
    (hw : w.markersOk = true) :
    byteSteps 7 s = some { s with
      rdPos := s.rdPos + 7
      syncWork := ⟨w.status, w.p1, w.p2, w.p3, w.p4, w.p5⟩
      syncState := UNSYNC
      dispFrame := decodeFrame s.params.statusKeepMarker w
      dispList := s.recReg
      dispIdx := 0
      rdState := RD_DISPATCH } := by
  obtain ⟨status, p1, p2, p3, p4, p5, p6⟩ := w
  simp only [WireFrame.markersOk, Bool.and_eq_true, Bool.not_eq_true'] at hw
  obtain ⟨⟨⟨⟨⟨⟨h0, h1⟩, h2⟩, h3⟩, h4⟩, h5⟩, h6⟩ := hw
  obtain ⟨n1, e0⟩ := h.status hs h0
  obtain ⟨n2, e1⟩ := n1.payload (k := STATUS_READ) rfl (by decide) (by decide) h1
  obtain ⟨n3, e2⟩ := n2.payload (k := P1_READ) rfl (by decide) (by decide) h2
  obtain ⟨n4, e3⟩ := n3.payload (k := P2_READ) rfl (by decide) (by decide) h3
  obtain ⟨n5, e4⟩ := n4.payload (k := P3_READ) rfl (by decide) (by decide) h4
  obtain ⟨n6, e5⟩ := n5.payload (k := P4_READ) rfl (by decide) (by decide) h5
  rw [e0, e1, e2, e3, e4, e5, n6.byteSteps_succ, byteEffect_lo_p5 (n6.nextByte_eq ▸ h6) rfl,
    State.completeFrame, n6.nextByte_eq]
  rfl

end Sys2Proof.Machine

namespace Sys2Proof.Proofs

open Sys2Proof.Machine

/-- Settles O16: the byte steps over the flipped byte and over the skipped bytes end in `UNSYNC`
before the frame's first byte. -/
theorem theNextWellFormedFrameIsDelivered : Obligations.TheNextWellFormedFrameIsDelivered := by
  intro s flipped skipped w ⟨hf, hr⟩ hs hfl hlo hw hbytes hwithin
  have hsync : s.syncState ≤ P5_READ := by
    rw [State.reservedCode, Bool.or_eq_false_iff] at hr
    exact BitVec.not_lt.1 (of_decide_eq_false hr.2)
  rw [List.append_assoc] at hbytes hwithin ⊢
  have h : s.HasNext (flipped ++ (skipped ++ w.bytes)) := ⟨hf, hsync, hs, hbytes, hwithin⟩
  have hskip := h.moved s.syncWork (code := UNSYNC) (by decide)
  have hframe := hskip.moved s.syncWork (code := UNSYNC) (by decide)
  simp only [List.length_append]
  have hrun := (byteSteps_add _ (byteSteps_flipped h hfl)).trans
    ((byteSteps_add 7 (byteSteps_skipped hskip rfl hlo)).trans (byteSteps_frame hframe rfl hw))
  refine ⟨_, hrun, rfl, ?_⟩
  rw [← Nat.add_assoc, ← Nat.add_assoc]
  rfl

end Sys2Proof.Proofs

end

section
/-! PROOFS. The dispatch registers decide nothing outside a dispatch (10_state R30, log 25): two
states that differ in them alone are followed, move by move, by one state or by two that differ in
them alone. -/

namespace Sys2Proof.Machine

variable {s t : State} {ids : List Byte} {idx : Nat}

/-! ### States and answers that differ in the dispatch registers alone -/

/-- `t'` is `t`, or is `t` with these dispatch registers and no dispatch is in progress. -/
def SameBut (ids : List Byte) (idx : Nat) (t t' : State) : Prop :=
  t' = t ∨ t.rdState ≠ RD_DISPATCH ∧ t' = t.withDispatch ids idx

/-- Where `o` is a next state, `o'` is one that differs from it in the dispatch registers at
most. -/
def Alike (ids : List Byte) (idx : Nat) (o o' : Host.Outcome State Fault Refusal) : Prop :=
  ∀ t, o = .next t → ∃ t', o' = .next t' ∧ SameBut ids idx t t'

theorem alike_next {t t' : State} (h : SameBut ids idx t t') :
    Alike ids idx (.next t) (.next t') := by
  intro u hu
  cases hu
  exact ⟨t', rfl, h⟩

theorem alike_fault {f : Fault} {o : Host.Outcome State Fault Refusal} :
    Alike ids idx (.fault f) o := fun _ h => nomatch h

/-- A choice that the dispatch registers have no part in. -/
theorem sameBut_ite {c : Prop} [Decidable c] {t t' u u' : State} (ht : SameBut ids idx t t')
    (hu : SameBut ids idx u u') :
    SameBut ids idx (if c then t else u) (if c then t' else u') := by
  split
  · exact ht
  · exact hu

/-- Both states stay as they are. -/
theorem sameBut_self (h : s.rdState ≠ RD_DISPATCH) : SameBut ids idx s (s.withDispatch ids idx) :=
  .inr ⟨h, rfl⟩

/-- Both states stay as they are but for a model fault. -/
theorem sameBut_modelFault (h : s.rdState ≠ RD_DISPATCH) :
    SameBut ids idx s.modelFault (s.withDispatch ids idx).modelFault := .inr ⟨h, rfl⟩

/-! ### The guards -/

theorem alike_takeStep {a : Agent} {sel : BitVec 8} {body : State → State}
    (h : s.rdState ≠ RD_DISPATCH)
    (hbody : s.reservedCode a = false → selector a s = some sel →
      SameBut ids idx (body s) (body (s.withDispatch ids idx))) :
    Alike ids idx (takeStep a sel body s) (takeStep a sel body (s.withDispatch ids idx)) := by
  unfold takeStep
  rw [State.withDispatch_faulted, State.withDispatch_reservedCode, selector_withDispatch ids idx h]
  split
  · exact alike_fault
  split
  · exact alike_next (sameBut_modelFault h)
  next hr =>
    split
    next hsel => exact alike_next (hbody (Bool.eq_false_of_not_eq_true hr) hsel)
    next => exact alike_next (sameBut_self h)

theorem alike_takeByteStep {rx : BitVec 11} {body : State → State} (h : s.rdState ≠ RD_DISPATCH)
    (hbody : s.rxSel = rx → SameBut ids idx (body s) (body (s.withDispatch ids idx))) :
    Alike ids idx (takeByteStep rx body s) (takeByteStep rx body (s.withDispatch ids idx)) := by
  unfold takeByteStep
  rw [State.withDispatch_faulted, State.withDispatch_reservedCode,
    selector_withDispatch ids idx h, State.withDispatch_rxSel]
  split
  · exact alike_fault
  split
  · exact alike_next (sameBut_modelFault h)
  split
  next hsel => exact alike_next (hbody hsel.2)
  next => exact alike_next (sameBut_self h)

theorem alike_takeCommand {legal : Bool} {body : State → State} (h : s.rdState ≠ RD_DISPATCH)
    (hbody : SameBut ids idx (body s) (body (s.withDispatch ids idx))) :
    Alike ids idx (takeCommand legal body s) (takeCommand legal body (s.withDispatch ids idx)) := by
  unfold takeCommand
  rw [State.withDispatch_faulted, State.withDispatch_reservedCode, State.withDispatch_cuBusy]
  split
  · exact alike_fault
  split
  · exact alike_next (sameBut_modelFault h)
  split
  · exact alike_next (.inr ⟨h, rfl⟩)
  split
  · exact alike_next hbody
  · exact alike_next (.inr ⟨h, rfl⟩)

/-- A step that reads the clock. -/
theorem sameBut_readingClock {body : State → State} (h : s.rdState ≠ RD_DISPATCH)
    (hbody : SameBut ids idx (body s) (body (s.withDispatch ids idx))) :
    SameBut ids idx (s.readingClock body) ((s.withDispatch ids idx).readingClock body) :=
  sameBut_ite (sameBut_modelFault h) hbody

/-! ### The effects that choose -/

/-- A byte step leaves the dispatch registers or, at the end of a frame, writes both. -/
theorem sameBut_byteEffect (h : s.rdState ≠ RD_DISPATCH) :
    SameBut ids idx s.byteEffect (s.withDispatch ids idx).byteEffect := by
  rw [State.byteEffect, State.byteEffect]
  exact sameBut_ite (sameBut_ite (.inr ⟨h, rfl⟩) (.inr ⟨h, rfl⟩))
    (sameBut_ite (.inr ⟨h, rfl⟩) (sameBut_ite (.inl rfl) (.inr ⟨h, rfl⟩)))

@[simp] theorem State.withDispatch_underrunNotify :
    (s.withDispatch ids idx).underrunNotify = s.underrunNotify.withDispatch ids idx := by
  have hdue : (s.withDispatch ids idx).underrunDue = s.underrunDue := rfl
  rw [State.underrunNotify, State.underrunNotify, hdue, State.withDispatch_player]
  split <;> rfl

@[simp] theorem State.withDispatch_client : (s.withDispatch ids idx).client = s.client := rfl

@[simp] theorem State.withDispatch_cnt (b : Bool) :
    (s.withDispatch ids idx).cnt b = s.cnt b := rfl

theorem closeTransmitter_withDispatch :
    (s.withDispatch ids idx).closeTransmitter =
      s.closeTransmitter.map (State.withDispatch · ids idx) := by
  rw [State.closeTransmitter, State.closeTransmitter, State.withDispatch_txState,
    State.withDispatch_txRunning, State.withDispatch_prState]
  split
  · rfl
  split <;> rfl

theorem closeReader_withDispatch :
    (s.withDispatch ids idx).closeReader = s.closeReader.map (State.withDispatch · ids idx) := by
  rw [State.closeReader, State.closeReader, State.withDispatch_rdState,
    State.withDispatch_rdRunning]
  split
  · rfl
  split <;> rfl

theorem closeTransmitter_rdState (h : s.closeTransmitter = some t) : t.rdState = s.rdState := by
  unfold State.closeTransmitter at h
  split at h
  · cases h; rfl
  split at h
  · cases h
  · cases h; rfl

theorem closeReader_rdState (h : s.closeReader = some t) : t.rdState = RD_STOPPED := by
  unfold State.closeReader at h
  split at h
  · cases h; assumption
  split at h
  · cases h
  · cases h; rfl

/-! ### The instructions -/

/-- An instruction that is a step, by its body. -/
theorem alike_exec_step {i : Instr} {a : Agent} {sel : BitVec 8} {body : State → State}
    (hexec : ∀ s, exec i s = takeStep a sel body s) (h : s.rdState ≠ RD_DISPATCH)
    (hbody : s.reservedCode a = false → selector a s = some sel →
      SameBut ids idx (body s) (body (s.withDispatch ids idx))) :
    Alike ids idx (exec i s) (exec i (s.withDispatch ids idx)) := by
  rw [hexec, hexec]
  exact alike_takeStep h hbody

/-- An instruction that is a command, by its body. -/
theorem alike_exec_command {i : Instr} {legal : Bool} {body : State → State}
    (hexec : ∀ s, exec i s = takeCommand legal body s) (h : s.rdState ≠ RD_DISPATCH)
    (hbody : SameBut ids idx (body s) (body (s.withDispatch ids idx))) :
    Alike ids idx (exec i s) (exec i (s.withDispatch ids idx)) := by
  rw [hexec, hexec]
  exact alike_takeCommand h hbody

theorem alike_prPullDone (h : s.rdState ≠ RD_DISPATCH) :
    Alike ids idx (exec .prPullDone s) (exec .prPullDone (s.withDispatch ids idx)) := by
  refine alike_exec_step (fun _ => rfl) h fun hr hs => ?_
  obtain ⟨-, hpull⟩ := (selector_prPullDone hr).1 hs
  obtain ⟨frames, hpull⟩ := Option.isSome_iff_exists.1 hpull
  simp only [State.withDispatch_envPull, hpull, State.withDispatch_client, State.withDispatch_cnt]
  refine sameBut_ite (sameBut_modelFault h) ?_
  by_cases hfits : frames = [] ∨ s.cnt s.client + frames.length ≤ s.params.txBufFrames
  · rw [State.bufWriteFrom_of_fits hfits,
      State.bufWriteFrom_of_fits (s := s.withDispatch ids idx) hfits]
    simp only [State.setCnt_eq, State.setBuf_eq]
    exact .inr ⟨h, rfl⟩
  · rw [bufWriteFrom_of_not_fits hfits,
      bufWriteFrom_of_not_fits (s := s.withDispatch ids idx) hfits]
    exact sameBut_modelFault h

/-- The Reader's start clears the dispatch registers or, in the other reading, leaves them
(log 25). -/
theorem alike_cuStartRd (h : s.rdState ≠ RD_DISPATCH) :
    Alike ids idx (exec .cuStartRd s) (exec .cuStartRd (s.withDispatch ids idx)) := by
  refine alike_exec_step (fun _ => rfl) h fun _ _ => ?_
  rw [State.rdStart, State.rdStart, State.withDispatch_params]
  cases s.params.startKeepsDispatch with
  | false => exact .inl rfl
  | true => exact .inr ⟨show RD_READ ≠ RD_DISPATCH by decide, rfl⟩

theorem alike_stepSel {i : Instr} {sel : BitVec 8} (hi : encode i = .stepSel sel)
    (h : s.rdState ≠ RD_DISPATCH) :
    Alike ids idx (exec i s) (exec i (s.withDispatch ids idx)) := by
  cases i
  case rdDispatchExt =>
    exact alike_exec_step (fun _ => rfl) h fun hr hs =>
      absurd ((selector_rdDispatchExt hr).1 hs).1 h
  case rdFeedback =>
    exact alike_exec_step (fun _ => rfl) h fun hr hs => absurd ((selector_rdFeedback hr).1 hs).1 h
  case rdDispatchEnd =>
    exact alike_exec_step (fun _ => rfl) h fun hr hs =>
      absurd ((selector_rdDispatchEnd hr).1 hs).1 h
  case rdReadData =>
    refine alike_exec_step (fun _ => rfl) h fun hr hs => ?_
    obtain ⟨-, bytes, hread, -⟩ := (selector_rdReadData hr).1 hs
    simp only [State.withDispatch_envRead, hread]
    exact sameBut_ite (sameBut_modelFault h) (.inr ⟨show RD_PROCESS ≠ RD_DISPATCH by decide, rfl⟩)
  case rdReadFail =>
    refine alike_exec_step (fun _ => rfl) h fun hr hs => ?_
    obtain ⟨-, code, hread⟩ := (selector_rdReadFail hr).1 hs
    simp only [State.withDispatch_envRead, hread]
    exact .inr ⟨show RD_FAILED ≠ RD_DISPATCH by decide, rfl⟩
  case rdReadEmpty =>
    exact alike_exec_step (fun _ => rfl) h fun _ _ =>
      sameBut_readingClock h (.inr ⟨show RD_SLEEP ≠ RD_DISPATCH by decide, rfl⟩)
  case rdSleepDone =>
    exact alike_exec_step (fun _ => rfl) h fun _ _ =>
      sameBut_readingClock h (.inr ⟨show RD_READ ≠ RD_DISPATCH by decide, rfl⟩)
  case rdByteStep => exact alike_exec_step (fun _ => rfl) h fun _ _ => sameBut_byteEffect h
  case rdBufDone =>
    exact alike_exec_step (fun _ => rfl) h fun _ _ =>
      .inr ⟨show RD_READ ≠ RD_DISPATCH by decide, rfl⟩
  case txPreload | txSwapOk | txHalfPoint | txNextFrame | txHalfNeed | txWriteOk | prPullIssue
    | prPullNone | cuDeviceOpenOk | cuDeviceOpenFail | cuStartTx =>
    exact alike_exec_step (fun _ => rfl) h fun _ _ => .inr ⟨h, rfl⟩
  case txThrottleHold | txThrottleRecheck =>
    exact alike_exec_step (fun _ => rfl) h fun _ _ => sameBut_readingClock h (.inr ⟨h, rfl⟩)
  case txSwapUnderrun =>
    refine alike_exec_step (fun _ => rfl) h fun _ _ => sameBut_readingClock h (.inr ?_)
    rw [State.withDispatch_underrunNotify, underrunNotify_eq]
    exact ⟨h, rfl⟩
  case txUnderrunRetry =>
    refine alike_exec_step (fun _ => rfl) h fun _ _ => sameBut_readingClock h (.inr ?_)
    rw [retryNeed_eq, retryNeed_eq]
    exact ⟨h, rfl⟩
  case txDrainEnd =>
    refine alike_exec_step (fun _ => rfl) h fun _ _ => .inr ?_
    rw [State.setCnt_eq, State.setCnt_eq]
    exact ⟨h, rfl⟩
  case txThrottlePass =>
    refine alike_exec_step (fun _ => rfl) h fun _ _ => ?_
    have hread : (s.withDispatch ids idx).bufRead s.wsel s.widx = s.bufRead s.wsel s.widx := rfl
    rw [State.withDispatch_wsel, State.withDispatch_widx, hread]
    cases s.bufRead s.wsel s.widx with
    | none => exact sameBut_modelFault h
    | some f => exact .inr ⟨h, rfl⟩
  case txWriteFail =>
    refine alike_exec_step (fun _ => rfl) h fun hr hs => ?_
    obtain ⟨-, code, hwrite⟩ := (selector_txWriteFail hr).1 hs
    simp only [State.withDispatch_envWrite, hwrite]
    exact .inr ⟨h, rfl⟩
  case prPullDone => exact alike_prPullDone h
  case cuStartRd => exact alike_cuStartRd h
  all_goals cases hi

theorem alike_ctlCmd {i : Instr} {w : BitVec 16} (hi : encode i = .ctlCmd w)
    (h : s.rdState ≠ RD_DISPATCH) :
    Alike ids idx (exec i s) (exec i (s.withDispatch ids idx)) := by
  have hsame : ∀ {t : State}, t.rdState = s.rdState →
      SameBut ids idx t (t.withDispatch ids idx) := fun ht => sameBut_self (ht ▸ h)
  cases i
  case closeSession operand =>
    refine alike_exec_command (fun _ => rfl) h (sameBut_ite (hsame rfl) ?_)
    rw [closeTransmitter_withDispatch]
    cases htx : s.closeTransmitter with
    | none => exact hsame rfl
    | some t =>
      simp only [Option.map_some, closeReader_withDispatch]
      cases hrd : t.closeReader with
      | none =>
        have ht : t.rdState = s.rdState := closeTransmitter_rdState htx
        exact hsame (t := t.answerMisuse) ht
      | some u =>
        have hu : u.rdState ≠ RD_DISPATCH := closeReader_rdState hrd ▸ (by decide)
        exact .inr ⟨hu, rfl⟩
  case openSession operand | attachPlayer operand =>
    exact alike_exec_command (fun _ => rfl) h (sameBut_ite (hsame rfl) (hsame rfl))
  case attachRec operand =>
    exact alike_exec_command (fun _ => rfl) h
      (sameBut_ite (hsame rfl) (sameBut_ite (hsame rfl) (hsame rfl)))
  case detachRec operand => exact alike_exec_command (fun _ => rfl) h (hsame rfl)
  case detachPlayer operand =>
    refine alike_exec_command (fun _ => rfl) h ?_
    rw [State.withDispatch_player]
    split
    · exact hsame rfl
    · exact hsame rfl
  case readStatus operand | readRdFailure operand | readTxFailure operand =>
    exact alike_exec_command (fun _ => rfl) h (hsame rfl)
  all_goals cases hi

/-- Every instruction taken outside a dispatch. -/
theorem alike_exec (i : Instr) (h : s.rdState ≠ RD_DISPATCH) :
    Alike ids idx (exec i s) (exec i (s.withDispatch ids idx)) := by
  cases hi : encode i with
  | stepSel sel => exact alike_stepSel hi h
  | ctlCmd w => exact alike_ctlCmd hi h
  | rxSel w =>
    obtain ⟨-, body, hexec, hbody⟩ := exec_eq_takeByteStep hi
    rw [hexec, hexec]
    refine alike_takeByteStep h fun hw => ?_
    rw [hbody s hw, hbody (s.withDispatch ids idx) hw]
    exact sameBut_byteEffect h
  | wireOut w =>
    cases i
    case codecEncode => exact alike_next (.inr ⟨h, rfl⟩)
    all_goals cases hi
  | wireIn w =>
    cases i
    case codecDecode => exact alike_next (.inr ⟨h, rfl⟩)
    all_goals cases hi

/-! ### The moves -/

theorem alike_undecoded (e : DecodeError) (h : s.rdState ≠ RD_DISPATCH) :
    Alike ids idx (undecoded e s) (undecoded e (s.withDispatch ids idx)) := by
  cases e with
  | notAWireFrame | notEncoderOutput => exact fun _ ht => nomatch ht
  | reservedSyncState | unlistedSelector sel =>
    exact alike_next (sameBut_ite (sameBut_modelFault h) (sameBut_self h))
  | reservedOpcode op => exact alike_takeCommand h (sameBut_self h)

theorem alike_runCode (c : Code) (h : s.rdState ≠ RD_DISPATCH) :
    Alike ids idx (runCode c s) (runCode c (s.withDispatch ids idx)) := by
  rw [runCode, runCode]
  cases decode c with
  | instr i => exact alike_exec i h
  | rejected e => exact alike_undecoded e h

/-- No Recorder is asked outside a dispatch, so its acceptance is a model fault. -/
theorem sameBut_offerAck (id : Byte) (h : s.rdState ≠ RD_DISPATCH) :
    SameBut ids idx (s.offerAck id) ((s.withDispatch ids idx).offerAck id) := by
  rw [offerAck_eq_ite, offerAck_eq_ite, if_neg fun hc => h hc.1,
    if_neg fun hc => h (State.withDispatch_rdState s ids idx ▸ hc.1)]
  exact sameBut_modelFault h

theorem alike_step (h : s.rdState ≠ RD_DISPATCH) :
    Alike ids idx (step s) (step (s.withDispatch ids idx)) := by
  have hpop : s.popTurn.rdState ≠ RD_DISPATCH := h
  rw [step, step, State.withDispatch_faulted, State.withDispatch_turns, State.withDispatch_popTurn]
  split
  · exact alike_fault
  cases s.turns with
  | nil => exact alike_next (sameBut_self h)
  | cons turn rest =>
    cases turn with
    | word c => exact alike_runCode c hpop
    | agent a =>
      simp only [selector_withDispatch ids idx h]
      cases selector a s with
      | none => exact alike_next (sameBut_self hpop)
      | some sel => exact alike_runCode _ hpop
    | ack id => exact alike_next (sameBut_offerAck id hpop)
    | clock now => exact alike_next (sameBut_self hpop)
    | read r | write r | pull frames | device r =>
      exact alike_next (sameBut_ite (sameBut_self hpop) (sameBut_modelFault hpop))

end Sys2Proof.Machine

namespace Sys2Proof.Proofs

open Sys2Proof.Machine

/-- Settles O60: every guard and every effect taken outside a dispatch leaves the dispatch registers
alone or writes both. -/
theorem theDispatchRegistersAreDeadOutsideADispatch :
    Obligations.TheDispatchRegistersAreDeadOutsideADispatch := by
  intro s t ids idx h hstep
  obtain ⟨t', hstep', rfl | ⟨ht, rfl⟩⟩ := alike_step (ids := ids) (idx := idx) h t hstep
  · exact .inl hstep'
  · exact .inr ⟨ht, hstep'⟩

end Sys2Proof.Proofs

end
